-- ==== Sys2Proof/Word.lean ====
section
/-! DEFINITION. The word types of the 6610 and the fixed-size records the spec counts in:
six channels, four trip inputs, two protection groups (spec/00_scope.md 1.2, 1.5). -/

namespace Sys2Proof

/-- One byte of the link or of an image. -/
abbrev Byte := BitVec 8

/-- A two-byte field: period numbers, on-times, phases, tags, checksums. -/
abbrev Word := BitVec 16

/-- One value for each channel 0..5. -/
structure Six (α : Type) where
  c0 : α
  c1 : α
  c2 : α
  c3 : α
  c4 : α
  c5 : α
deriving DecidableEq, Repr

/-- One value for each trip input TRIP0..TRIP3. -/
structure Four (α : Type) where
  i0 : α
  i1 : α
  i2 : α
  i3 : α
deriving DecidableEq, Repr

/-- One value for each protection group 0 and 1. -/
structure Two (α : Type) where
  g0 : α
  g1 : α
deriving DecidableEq, Repr

variable {α β : Type}

def Six.get (x : Six α) (c : Fin 6) : α :=
  match c.val with
  | 0 => x.c0
  | 1 => x.c1
  | 2 => x.c2
  | 3 => x.c3
  | 4 => x.c4
  | _ => x.c5

/-- The six values with channel `c`'s passed through `f`. -/
def Six.modify (x : Six α) (c : Fin 6) (f : α → α) : Six α :=
  match c.val with
  | 0 => { x with c0 := f x.c0 }
  | 1 => { x with c1 := f x.c1 }
  | 2 => { x with c2 := f x.c2 }
  | 3 => { x with c3 := f x.c3 }
  | 4 => { x with c4 := f x.c4 }
  | _ => { x with c5 := f x.c5 }

/-- Each channel's value from its number and its old value. -/
def Six.mapIdx (x : Six α) (f : Fin 6 → α → β) : Six β :=
  ⟨f 0 x.c0, f 1 x.c1, f 2 x.c2, f 3 x.c3, f 4 x.c4, f 5 x.c5⟩

def Six.map (x : Six α) (f : α → β) : Six β := x.mapIdx fun _ a => f a

def Six.all (a : α) : Six α := ⟨a, a, a, a, a, a⟩

def Six.toList (x : Six α) : List α := [x.c0, x.c1, x.c2, x.c3, x.c4, x.c5]

def Four.get (x : Four α) (i : Fin 4) : α :=
  match i.val with
  | 0 => x.i0
  | 1 => x.i1
  | 2 => x.i2
  | _ => x.i3

def Four.modify (x : Four α) (i : Fin 4) (f : α → α) : Four α :=
  match i.val with
  | 0 => { x with i0 := f x.i0 }
  | 1 => { x with i1 := f x.i1 }
  | 2 => { x with i2 := f x.i2 }
  | _ => { x with i3 := f x.i3 }

def Four.map (x : Four α) (f : α → β) : Four β := ⟨f x.i0, f x.i1, f x.i2, f x.i3⟩

def Four.all (a : α) : Four α := ⟨a, a, a, a⟩

def Four.toList (x : Four α) : List α := [x.i0, x.i1, x.i2, x.i3]

def Two.get (x : Two α) (g : Fin 2) : α :=
  match g.val with
  | 0 => x.g0
  | _ => x.g1

def Two.modify (x : Two α) (g : Fin 2) (f : α → α) : Two α :=
  match g.val with
  | 0 => { x with g0 := f x.g0 }
  | _ => { x with g1 := f x.g1 }

/-- Each group's value from its number and its old value. -/
def Two.mapIdx (x : Two α) (f : Fin 2 → α → β) : Two β := ⟨f 0 x.g0, f 1 x.g1⟩

def Two.map (x : Two α) (f : α → β) : Two β := ⟨f x.g0, f x.g1⟩

def Two.all (a : α) : Two α := ⟨a, a⟩

/-- The channel numbers 0..5. -/
def channels : List (Fin 6) := [0, 1, 2, 3, 4, 5]

/-- The trip input numbers 0..3. -/
def tripInputs : List (Fin 4) := [0, 1, 2, 3]

/-- The group numbers 0 and 1. -/
def groups : List (Fin 2) := [0, 1]

end Sys2Proof
end

