-- ==== Sys2Proof/Syntax.lean ====
section
/-! DEFINITION. The commands of the block: one constructor for each row of spec/opcode_table.json,
with the operands the spec gives the row. -/

namespace Sys2Proof

/-- A symbol of the ring link, as LINK_IN receives it (07 R116). `invalid` is any received code that
is none of the four. -/
inductive Symbol where
  | byte (b : Byte)
  | frameStart
  | frameEnd
  | idle
  | invalid
deriving DecidableEq, Repr, Inhabited

/-- A management request as its MGMT frame carries it to the node (09 R146, 11.3). The frame's kind,
length, argument length, request check, reply capacity and trailer are computed from these fields;
`damage` lists the symbols of the frame (position 0 is its FRAME_START) that arrive as another symbol:
it is empty for an undamaged frame (log 19). -/
structure Request where
  /-- destination: a node address, or 255 for a broadcast -/
  dest : Byte
  /-- sequence number -/
  seq : Byte
  /-- argument bytes, 0 to 48 of them in a well-formed request -/
  args : List Byte
  /-- the reply area as it arrives; its size is the reply capacity -/
  area : List Byte
  /-- body bytes after the reply area -/
  padding : List Byte
  /-- symbols that arrive changed -/
  damage : List (Nat × Symbol)
deriving DecidableEq, Repr

/-- The commands. A row that is a request carries a `Request`; a row that is a frame carries the symbols
received at LINK_IN in successive byte times, a whole frame or a part of one (log 6). -/
inductive Instr where
  | powerOn
  | resetNAsserted
  | resetNReleased
  | invalidSymbol
  | cycleFrame (symbols : List Symbol)
  | rollcall (symbols : List Symbol)
  | unknownKindFrame (symbols : List Symbol)
  | unknownRequest (kind : Byte) (r : Request)
  | identify (r : Request)
  | readEntry (r : Request)
  /-- WRITE ENTRY; the table byte, then the other argument bytes in `r.args`: index, role, entry -/
  | writeEntryBank (table : Byte) (r : Request)
  /-- WRITE ENTRY to table 04H; `r.args` holds the argument bytes after the table byte -/
  | writeEntryTripInput (r : Request)
  /-- WRITE ENTRY to table 05H; `r.args` holds the argument bytes after the table byte -/
  | writeEntryGroup (r : Request)
  /-- WRITE ENTRY to table 06H; `r.args` holds the argument bytes after the table byte -/
  | writeEntryNode (r : Request)
  | copyActive (r : Request)
  | commit (r : Request)
  | arm (r : Request)
  | align (r : Request)
  | trim (r : Request)
  | stop (r : Request)
  | clear (r : Request)
  | restart (r : Request)
  | tripAck (r : Request)
  | faultRead (r : Request)
  | faultPop (r : Request)
  | countersRead (r : Request)
  | countersClear (r : Request)
  | loadBegin (r : Request)
  | loadData (r : Request)
  | loadEnd (r : Request)
  | loadCancel (r : Request)
  | periodBoundary
  | drvOkFall
  | plannedChange (c : Fin 6)
  | deadTimeEnd (c : Fin 6)
  | trip (i : Fin 4)
  | assertionEpisodeEnd (i : Fin 4)
  | restoreTimerExpiry (g : Fin 2)
  | gapTimerExpiry
  | checkCompletion
  | drvOkRise
  | tripInputAssertion (i : Fin 4)
  | powerLoss
deriving DecidableEq, Repr

end Sys2Proof
end

