-- ==== Sys2Proof/Config.lean ====
section
/-! DEFINITION. What the hardware fixes, and the free values: constants without a body that stand where
the spec leaves a choice open (logs 5 and 9). -/

namespace Sys2Proof.Config

/-- Symbol times between LINK_IN and LINK_OUT (07 R117). -/
def forwardDelay : Nat := 20

/-- The gap timer's start value, 20 ms in ticks (10 R166, R169). -/
def gapTicks : Nat := 2000000

/-- Ticks from the decision of LOAD END to the end of its check (10 R171). -/
def checkTicks : Nat := 300

/-- The smallest period length a trimmed period can have (02 R23). -/
def minPeriod : Nat := 500

/-- L at power-on (02 R22). -/
def resetLen : Nat := 500

/-- Largest number of bytes of a cycle frame's slot (11.2). -/
def maxSlotLength : Nat := 64

/-- Largest frame body (07 R122). -/
def maxBody : Nat := 1020

/-- Largest frame: kind, length, 1020 body bytes, trailer (07 R119). -/
def maxPositions : Nat := 1025

/-- FREE VALUE (log 5): which of the events that are due in one tick is taken first, at the `draw`-th draw, modulo their
number. The spec lets either of two such events be taken first. -/
opaque dueChoice (draw : Nat) : Nat

/-- FREE VALUE (log 9): what leaves LINK_OUT when a symbol arrives at an unpowered node. -/
opaque unpoweredSymbol (draw : Nat) : Symbol

end Sys2Proof.Config
end

