-- ==== Sys2Proof/Machine/State.lean ====
section
/-! DEFINITION. The state of the 6610, block by block (spec/00_scope.md 1.2), the reasons a command can
stop, and the state after reset. Each type's docstring names the rule that gives it. -/

namespace Sys2Proof.Machine

/-- No command of this block stops the machine with a fault: what the manual calls a fault is a record of
the fault log, a counter, a status byte or a node state (log 27). So no constructor: safe. -/
inductive Fault where
deriving DecidableEq, Repr

/-- Why a command has no meaning. -/
inductive Refusal where
  /-- Raised by `exec` for a row that is not modelled yet; no arm uses it. Safe: the machine stops. -/
  | notModelled (mnemonic : String)
deriving DecidableEq, Repr

/-! ## Named values -/

/-- The five node states (R26). -/
inductive NodeState where
  | unaddressed
  | config
  | armed
  | run
  | safe
deriving DecidableEq, Repr

/-- The safe causes (R26). -/
inductive SafeCause where
  | none
  | stop
  | linkLoss
  | supplyLoss
  | holdLimit
deriving DecidableEq, Repr

/-- The causes of fault records (R105). -/
inductive FaultCause where
  | tripTimed
  | tripLatch
  | escalated
  | linkLoss
  | supplyLoss
  | holdLimit
deriving DecidableEq, Repr

/-- The group states (R89). -/
inductive GroupState where
  | enabled
  | cycleOff
  | timedOff
  | latched
deriving DecidableEq, Repr

/-- The shadow states (R7). -/
inductive ShadowState where
  | editable
  | loading
  | checking
  | frozen
  | broken
deriving DecidableEq, Repr

/-- The active condition (R6). -/
inductive ActiveCondition where
  | empty
  | valid
deriving DecidableEq, Repr

/-- The two banks; which one is active is the role indication (R1). -/
inductive BankName where
  | a
  | b
deriving DecidableEq, Repr

/-- A planned state or output state of a channel (R63). -/
inductive Level where
  | off
  | hi
  | lo
deriving DecidableEq, Repr

/-- The patterns of a channel record (R3). -/
inductive Pattern where
  | off
  | leading
  | trailing
  | centered
  | fixed
deriving DecidableEq, Repr

/-- Trip input polarity (R82). -/
inductive Polarity where
  | activeLow
  | activeHigh
deriving DecidableEq, Repr

/-- Trip actions (R82). -/
inductive TripAction where
  | cycle
  | timed
  | latch
deriving DecidableEq, Repr

/-- Load job states (R165). -/
inductive JobState where
  | idle
  | receiving
  | checking
deriving DecidableEq, Repr

/-- The request kinds of R154. -/
inductive ReqKind where
  | identify
  | readEntry
  | writeEntry
  | copyActive
  | commit
  | arm
  | align
  | trim
  | stop
  | clear
  | restart
  | tripAck
  | faultRead
  | faultPop
  | countersRead
  | countersClear
  | loadBegin
  | loadData
  | loadEnd
  | loadCancel
deriving DecidableEq, Repr

/-- The reply statuses of R153. -/
inductive Status where
  | done
  | pending
  | cancelled
  | refusedState
  | refusedBusy
  | invalid
  | checkFailed
  | late
  | incomplete
  | outOfOrder
  | active
  | noRoom
  | unknownRequest
deriving DecidableEq, Repr

/-- The reasons of CHECK_FAILED (R11 to R14, R171). -/
inductive Reason where
  | periodRange
  | holdRange
  | lossRange
  | reservedNonzero
  | patternUnknown
  | groupRange
  | deadTimeRange
  | onTimeLimits
  | phaseRange
  | edgeCount
  | edgeOrder
  | edgeRange
  | edgeState
  | slotKind
  | slotDuplicate
  | slotRange
  | slotOverlap
  | selectorUnknown
  | unboundChannel
  | loadIncomplete
  | checksumMismatch
deriving DecidableEq, Repr

/-- The contents a produce slot can carry (R141). -/
inductive Content where
  | state
  | trips
  | echo
deriving DecidableEq, Repr

/-- The sixteen counters, in index order (R112). -/
inductive CounterId where
  | framesGood
  | framesBad
  | symbolErrors
  | slotMismatch
  | slotRepeat
  | spLate
  | spFar
  | spOverrun
  | spReplaced
  | holds
  | clamps
  | cycleTripsG0
  | cycleTripsG1
  | mgmtCheckBad
  | mgmtReplayed
  | loadAborts
deriving DecidableEq, Repr

/-! ## Pins -/

/-- The levels of the input pins that belong to no single block: supply, RESET_N, DRV_OK (1.4). -/
structure Pins where
  supply : Bool
  resetN : Bool
  drvOk : Bool
deriving DecidableEq, Repr

/-! ## Link Relay and Roll Call Handler -/

/-- Receiver state (R119). -/
inductive RxState where
  | idle
  | inFrame
deriving DecidableEq, Repr

/-- The parser a frame is handed to, chosen when its kind arrives (R125); `none`: forwarded untouched. -/
inductive Parser where
  | none
  | slot
  | mgmt
  | roll
deriving DecidableEq, Repr

/-- The frame check state (R119), with what R121 and R124 need of the received and the outgoing bytes:
the CRC up to two positions before the newest, and the two newest bytes (`1` the newer). `past` counts the byte
positions after `pos` has come to stay at 1026, by which a parser tells where a longer body ends (R135; log 14). -/
structure FrameCheck where
  pos : Nat
  past : Nat
  crcIn : Word
  in1 : Byte
  in2 : Byte
  crcOut : Word
  out1 : Byte
  out2 : Byte
  symErr : Bool
  malformed : Bool
  kind : Option Byte
  lenHi : Byte
  length : Option Word
  parser : Parser
deriving DecidableEq, Repr

/-- A cleared frame check state (R119); the CRC registers start at FFFFH (R121). -/
def FrameCheck.clear : FrameCheck :=
  { pos := 0, past := 0, crcIn := 0xFFFF, in1 := 0, in2 := 0, crcOut := 0xFFFF, out1 := 0, out2 := 0,
    symErr := false, malformed := false, kind := none, lenHi := 0, length := none, parser := .none }

/-- The Link Relay (R119, R117, R118). `line` holds the symbols inside the node, oldest first; `sent`
the symbols that left LINK_OUT in the last command that received symbols (log 8). -/
structure Relay where
  rx : RxState
  frame : FrameCheck
  bypass : Bool
  line : List Symbol
  sent : List Symbol
deriving DecidableEq, Repr

/-- The Roll Call Handler (R128) with its part in the frame in progress (R129): the kept next address,
the base address, the index of the entry it writes. -/
structure RollCall where
  address : Byte
  staged : Option Byte
  next : Option Byte
  base : Byte
  entry : Option Nat
deriving DecidableEq, Repr

/-! ## Setpoints, Slot Parser, Setpoint Queue Unit -/

/-- A setpoint record (R41). -/
structure Setpoint where
  chan : Fin 6
  target : Word
  onTime : Word
  phase : Option Word
deriving DecidableEq, Repr

/-- Walker states (R132). -/
inductive Walker where
  | idle
  | header
  | slotId
  | slotLength
  | slotData
  | tail
  | stopped
deriving DecidableEq, Repr

/-- The treatment of a slot, fixed when it is resolved (R134, R136). `snap` is the content taken at the
slot length byte (R141). -/
inductive Treatment where
  | untouched
  | consume (first count : Nat)
  | produce (content : Content) (first count : Nat) (snap : List Byte)
deriving DecidableEq, Repr

/-- A slot-map entry as stored (R4, 11.5). -/
structure SlotEntry where
  id : Byte
  kind : Byte
  selector : Byte
  first : Nat
  count : Nat
deriving DecidableEq, Repr

/-- The current slot (R132): its id, its length, the entry it was resolved to or none (R136), its treatment; `got`
holds the data bytes received so far. -/
structure CurrentSlot where
  id : Byte
  length : Nat
  entry : Option SlotEntry
  treatment : Treatment
  got : List Byte
deriving DecidableEq, Repr

/-- The Slot Parser (R132). `dataPos` stands at 64 after the last byte of a slot of 64 bytes (log 31). -/
structure SlotParser where
  walker : Walker
  target : Word
  remaining : Nat
  cur : Option CurrentSlot
  dataPos : Nat
  acted : List Byte
  staging : List Setpoint
deriving DecidableEq, Repr

/-- What the Setpoint Queue Unit holds for one channel (R42). -/
structure ChannelQueue where
  records : List Setpoint
  lastOn : Word
  lastPhase : Word
  hold : Nat
  holdOff : Bool
deriving DecidableEq, Repr

/-! ## Bank Store -/

/-- A bank image of 224 bytes as (address, byte) pairs in canonical form: addresses strictly rising and
below 224, no entry with the byte an unlisted address reads as, which is 0 (R1; log 1). -/
abbrev Memory := List Host.Cell

/-- The pending commit record (R15); the pending flag is that there is one. -/
structure PendingCommit where
  period : Word
  seq : Byte
deriving DecidableEq, Repr

/-- The Bank Store (R1, R6, R7, R15). -/
structure BankStore where
  imgA : Memory
  imgB : Memory
  active : BankName
  cond : ActiveCondition
  shadow : ShadowState
  commit : Option PendingCommit
deriving DecidableEq, Repr

/-! ## Period Timer and Node State Controller -/

/-- The Period Timer (R22). `wrapDue` is the model's own: the tick after tick L − 1 has come and its
boundary is not yet taken (log 4). -/
structure PeriodTimer where
  tick : Nat
  len : Nat
  period : Word
  trim : Option Int
  running : Bool
  wrapDue : Bool
deriving DecidableEq, Repr

/-- The Node State Controller (R26). -/
structure NodeController where
  state : NodeState
  cause : SafeCause
  start : Option Word
  loss : Nat
deriving DecidableEq, Repr

/-! ## Pattern Generator -/

/-- An interval of a plan: its first tick and planned state. It ends where the next one begins, the last
one at the end of the period (R63; log 26). -/
structure Interval where
  first : Nat
  level : Level
deriving DecidableEq, Repr

/-- What the Pattern Generator holds for one channel (R63). `cur` is the interval in force and `dead` the
dead-time ticks left of the run in progress (R70); `flag` is the hold-until-next-edge flag with the tick
it was set at (R76; log 26). -/
structure ChannelGen where
  plan : List Interval
  closing : Level
  output : Level
  flag : Option Nat
  echo : Word
  cur : Nat
  dead : Option Nat
deriving DecidableEq, Repr

/-- The all-OFF plan (R63). -/
def allOff : List Interval := [⟨0, .off⟩]

/-! ## Protection Unit -/

/-- A trip input entry (R82); group `none` is NONE. -/
structure TripEntry where
  polarity : Polarity
  group : Option (Fin 2)
  filter : Byte
  blanking : Word
  action : TripAction
  delay : Word
deriving DecidableEq, Repr

/-- A trip input: its entry, the level of its pin, its detection state (R84), and whether the present tick
is blanked, judged at the tick's start (R86; log 16). -/
structure TripInput where
  entry : TripEntry
  pin : Bool
  count : Nat
  blank : Nat
  blanked : Bool
  episode : Bool
deriving DecidableEq, Repr

/-- A group entry (R83): escalation count E and window W. -/
structure GroupEntry where
  e : Byte
  w : Byte
deriving DecidableEq, Repr

/-- A protection group (R83, R89). -/
structure ProtGroup where
  entry : GroupEntry
  state : GroupState
  timer : Nat
  esc : Nat
  window : Nat
deriving DecidableEq, Repr

/-- The Protection Unit. -/
structure Protection where
  inputs : Four TripInput
  groups : Two ProtGroup
deriving DecidableEq, Repr

/-! ## Fault Log and Counters -/

/-- A fault record (R105). -/
structure FaultRecord where
  number : Word
  cause : FaultCause
  state : NodeState
  period : Word
  tick : Nat
  group : Option (Fin 2)
  input : Option (Fin 4)
  channel : Option (Fin 6)
deriving DecidableEq, Repr

/-- The Fault Log (R106), records oldest first. -/
structure FaultLog where
  records : List FaultRecord
  next : Word
  dropped : Nat
deriving DecidableEq, Repr

/-- The sixteen counters (R112). -/
structure Counters where
  framesGood : Nat
  framesBad : Nat
  symbolErrors : Nat
  slotMismatch : Nat
  slotRepeat : Nat
  spLate : Nat
  spFar : Nat
  spOverrun : Nat
  spReplaced : Nat
  holds : Nat
  clamps : Nat
  cycleTripsG0 : Nat
  cycleTripsG1 : Nat
  mgmtCheckBad : Nat
  mgmtReplayed : Nat
  loadAborts : Nat
deriving DecidableEq, Repr

/-- All counters at 0 (R115). -/
def Counters.zero : Counters := ⟨0, 0, 0, 0, 0, 0, 0, 0, 0, 0, 0, 0, 0, 0, 0, 0⟩

/-! ## Management Engine -/

/-- A replay cache record (R155). -/
structure CacheRecord where
  seq : Byte
  kind : ReqKind
  status : Status
  data : List Byte
deriving DecidableEq, Repr

/-- The match indication (R146, R147). -/
inductive MatchInd where
  | none
  | addressed
  | broadcast
deriving DecidableEq, Repr

/-- Where the engine stands in the body of a MGMT frame (R146). -/
inductive MgmtPhase where
  | dest
  | seq
  | kind
  | argLen
  | args
  | check
  | capacity
  | reply
  | tail
  | stopped
deriving DecidableEq, Repr

/-- A prepared reply (R146): a run of bytes for an addressed request (R151), the index of the tally byte
to increment for a broadcast (R159). -/
inductive Reply where
  | bytes (l : List Byte)
  | tally (index : Nat)
deriving DecidableEq, Repr

/-- The frame state of the Management Engine (R146). -/
structure MgmtFrame where
  phase : MgmtPhase
  ind : MatchInd
  seq : Byte
  kind : Byte
  argLen : Nat
  args : List Byte
  crc : Byte
  checkOk : Bool
  capacity : Nat
  reply : Option Reply
  replyPos : Nat
deriving DecidableEq, Repr

/-- A cleared frame state (R146). -/
def MgmtFrame.clear : MgmtFrame :=
  { phase := .dest, ind := .none, seq := 0, kind := 0, argLen := 0, args := [], crc := 0,
    checkOk := false, capacity := 0, reply := none, replyPos := 0 }

/-- The Management Engine (R146). -/
structure Management where
  cache : List CacheRecord
  comp : Word
  frame : MgmtFrame
deriving DecidableEq, Repr

/-! ## Load Engine -/

/-- The load job record (R165). The gap timer runs exactly while the job is RECEIVING; `checkLeft` counts
the ticks of the check down (R171; log 23). -/
structure LoadJob where
  state : JobState
  first : Nat
  count : Nat
  next : Nat
  checksum : Word
  written : Nat
  prior : ShadowState
  gap : Nat
  checkSeq : Option Byte
  checkLeft : Nat
deriving DecidableEq, Repr

/-- The whole node. -/
structure State where
  pins : Pins
  relay : Relay
  roll : RollCall
  slots : SlotParser
  queue : Six ChannelQueue
  bank : BankStore
  timer : PeriodTimer
  node : NodeController
  gen : Six ChannelGen
  prot : Protection
  log : FaultLog
  counters : Counters
  mgmt : Management
  load : LoadJob
  /-- commands that wait, first in, first out -/
  pending : List Instr
  /-- how many free values have been drawn (logs 5 and 9) -/
  freeCount : Nat
deriving DecidableEq, Repr

/-! ## Power-on values -/

/-- R127; twenty IDLE symbols inside the node are a DESIGN CHOICE (log 7). -/
def Relay.powerOn : Relay :=
  { rx := .idle, frame := .clear, bypass := false,
    line := List.replicate Config.forwardDelay .idle, sent := [] }

/-- R128. -/
def RollCall.powerOn : RollCall :=
  { address := 0, staged := none, next := none, base := 0, entry := none }

/-- R132, R145. -/
def SlotParser.powerOn : SlotParser :=
  { walker := .idle, target := 0, remaining := 0, cur := none, dataPos := 0, acted := [], staging := [] }

/-- R42, R62. -/
def ChannelQueue.powerOn : ChannelQueue :=
  { records := [], lastOn := 0, lastPhase := 0, hold := 0, holdOff := false }

/-- R1, R6, R7, R21. -/
def BankStore.powerOn : BankStore :=
  { imgA := [], imgB := [], active := .a, cond := .empty, shadow := .editable, commit := none }

/-- R22. -/
def PeriodTimer.powerOn : PeriodTimer :=
  { tick := 0, len := Config.resetLen, period := 0, trim := none, running := false, wrapDue := false }

/-- R26. -/
def NodeController.powerOn : NodeController :=
  { state := .unaddressed, cause := .none, start := none, loss := 0 }

/-- R63, R81. -/
def ChannelGen.powerOn : ChannelGen :=
  { plan := allOff, closing := .off, output := .off, flag := none, echo := 0xFFFF, cur := 0, dead := none }

/-- R82. -/
def TripEntry.powerOn : TripEntry :=
  { polarity := .activeLow, group := none, filter := 0, blanking := 0, action := .latch, delay := 1 }

/-- R82, R84: entry and detection state at power-on, the pin at the level it has. -/
def TripInput.powerOn (pin : Bool) : TripInput :=
  { entry := .powerOn, pin := pin, count := 0, blank := 0, blanked := false, episode := false }

/-- R83, R89. -/
def ProtGroup.powerOn : ProtGroup :=
  { entry := ⟨0, 1⟩, state := .enabled, timer := 0, esc := 0, window := 0 }

/-- R106. -/
def FaultLog.powerOn : FaultLog := { records := [], next := 0, dropped := 0 }

/-- R146, R158. -/
def Management.powerOn : Management := { cache := [], comp := 0, frame := .clear }

/-- R165. -/
def LoadJob.powerOn : LoadJob :=
  { state := .idle, first := 0, count := 0, next := 0, checksum := 0, written := 0, prior := .editable,
    gap := 0, checkSeq := none, checkLeft := 0 }

/-- The machine right after reset: powered, RESET_N released, UNADDRESSED, every block at its power-on
values (R40). The levels of the input pins are a DESIGN CHOICE (log 2): DRV_OK and the trip pins high. -/
def State.reset : State :=
  { pins := { supply := true, resetN := true, drvOk := true }
    relay := .powerOn
    roll := .powerOn
    slots := .powerOn
    queue := .all .powerOn
    bank := .powerOn
    timer := .powerOn
    node := .powerOn
    gen := .all .powerOn
    prot := { inputs := .all (.powerOn true), groups := .all .powerOn }
    log := .powerOn
    counters := .zero
    mgmt := .powerOn
    load := .powerOn
    pending := []
    freeCount := 0 }

end Sys2Proof.Machine
end

