-- ==== Sys2Proof/Machine/Ops.lean ====
section
/-! DEFINITION. The named operations the blocks share: byte order, period distance, CRCs, counters, the bank
images and their roles, the fault log's append, the replay cache's completion. -/

namespace Sys2Proof.Machine

/-! ## Bytes and words (R174) -/

def hiByte (w : Word) : Byte := w.extractLsb' 8 8

def loByte (w : Word) : Byte := w.extractLsb' 0 8

/-- A two-byte field, most significant byte first (R174). -/
def wordOf (hi lo : Byte) : Word := hi ++ lo

/-- The two bytes of a field in the order they are sent (R174). -/
def wordBytes (w : Word) : List Byte := [hiByte w, loByte w]

/-- The byte at position `i` of a list of bytes, 0 past its end. -/
def byteAt (l : List Byte) (i : Nat) : Byte := l.getD i 0

/-- The word at positions `i` and `i + 1` (R174). -/
def wordAt (l : List Byte) (i : Nat) : Word := wordOf (byteAt l i) (byteAt l (i + 1))

/-! ## Period numbers (R24) -/

/-- The distance from period `a` to period `b` (R24). -/
def distance (a b : Word) : Nat := (b - a).toNat

/-- A distance of 1..k (R24). -/
def within (a b : Word) (k : Nat) : Bool := decide (1 ≤ distance a b) && decide (distance a b ≤ k)

/-! ## Cyclic redundancy checks -/

/-- One bit of the CRC-16 with polynomial 1021H, register shifted left (R121). -/
def crc16Shift (r : Word) : Word := bif r.msb then (r <<< 1) ^^^ 0x1021 else r <<< 1

/-- The CRC-16 register after one more byte, most significant bit first (R121). -/
def crc16Step (r : Word) (b : Byte) : Word :=
  Nat.repeat crc16Shift 8 (r ^^^ (b.zeroExtend 16 <<< 8))

/-- The CRC-16 of a run of bytes, register started at FFFFH, no final inversion (R121, R171). -/
def crc16 (l : List Byte) : Word := l.foldl crc16Step 0xFFFF

/-- One bit of the CRC-8 with polynomial 07H (R149). -/
def crc8Shift (r : Byte) : Byte := bif r.msb then (r <<< 1) ^^^ 0x07 else r <<< 1

/-- The CRC-8 register after one more byte (R149). -/
def crc8Step (r b : Byte) : Byte := Nat.repeat crc8Shift 8 (r ^^^ b)

/-- The CRC-8 of a run of bytes, register started at 00H (R149). -/
def crc8 (l : List Byte) : Byte := l.foldl crc8Step 0

/-! ## Counters (R112) -/

/-- One counter's value. -/
def Counters.get (c : Counters) : CounterId → Nat
  | .framesGood => c.framesGood
  | .framesBad => c.framesBad
  | .symbolErrors => c.symbolErrors
  | .slotMismatch => c.slotMismatch
  | .slotRepeat => c.slotRepeat
  | .spLate => c.spLate
  | .spFar => c.spFar
  | .spOverrun => c.spOverrun
  | .spReplaced => c.spReplaced
  | .holds => c.holds
  | .clamps => c.clamps
  | .cycleTripsG0 => c.cycleTripsG0
  | .cycleTripsG1 => c.cycleTripsG1
  | .mgmtCheckBad => c.mgmtCheckBad
  | .mgmtReplayed => c.mgmtReplayed
  | .loadAborts => c.loadAborts

/-- The value after `n` increments: 65535 is not passed (R112). -/
def saturate (x n : Nat) : Nat := min 65535 (x + n)

/-- `n` increments of one counter (R112). -/
def Counters.add (c : Counters) (n : Nat) : CounterId → Counters
  | .framesGood => { c with framesGood := saturate c.framesGood n }
  | .framesBad => { c with framesBad := saturate c.framesBad n }
  | .symbolErrors => { c with symbolErrors := saturate c.symbolErrors n }
  | .slotMismatch => { c with slotMismatch := saturate c.slotMismatch n }
  | .slotRepeat => { c with slotRepeat := saturate c.slotRepeat n }
  | .spLate => { c with spLate := saturate c.spLate n }
  | .spFar => { c with spFar := saturate c.spFar n }
  | .spOverrun => { c with spOverrun := saturate c.spOverrun n }
  | .spReplaced => { c with spReplaced := saturate c.spReplaced n }
  | .holds => { c with holds := saturate c.holds n }
  | .clamps => { c with clamps := saturate c.clamps n }
  | .cycleTripsG0 => { c with cycleTripsG0 := saturate c.cycleTripsG0 n }
  | .cycleTripsG1 => { c with cycleTripsG1 := saturate c.cycleTripsG1 n }
  | .mgmtCheckBad => { c with mgmtCheckBad := saturate c.mgmtCheckBad n }
  | .mgmtReplayed => { c with mgmtReplayed := saturate c.mgmtReplayed n }
  | .loadAborts => { c with loadAborts := saturate c.loadAborts n }

/-- The counters in index order (R112). -/
def Counters.toList (c : Counters) : List Nat :=
  [c.framesGood, c.framesBad, c.symbolErrors, c.slotMismatch, c.slotRepeat, c.spLate, c.spFar, c.spOverrun,
   c.spReplaced, c.holds, c.clamps, c.cycleTripsG0, c.cycleTripsG1, c.mgmtCheckBad, c.mgmtReplayed,
   c.loadAborts]

/-- `n` increments of a counter of the node. -/
def State.countN (s : State) (id : CounterId) (n : Nat) : State := { s with counters := s.counters.add n id }

/-- One increment of a counter of the node. -/
def State.count (s : State) (id : CounterId) : State := s.countN id 1

/-! ## Bank images (R1; log 1) -/

/-- Bytes of an image (R1). -/
def imageSize : Nat := 224

/-- The byte at an address; an unlisted address reads as 0 (R1). -/
def Memory.read : Memory → Nat → Byte
  | [], _ => 0
  | (k, v) :: t, a => if k = a then v else Memory.read t a

/-- Puts a byte at an address, keeping the canonical form. -/
def Memory.put : Memory → Nat → Byte → Memory
  | [], a, b => if b = 0 then [] else [(a, b)]
  | (k, v) :: t, a, b =>
    if a < k then (if b = 0 then (k, v) :: t else (a, b) :: (k, v) :: t)
    else if a = k then (if b = 0 then t else (a, b) :: t)
    else (k, v) :: Memory.put t a b

/-- Writes one byte of an image; an image has no byte at 224 or above. -/
def Memory.write (m : Memory) (a : Nat) (b : Byte) : Memory := if a < imageSize then m.put a b else m

/-- Writes a run of bytes from an address on. -/
def Memory.writeAll : Memory → Nat → List Byte → Memory
  | m, _, [] => m
  | m, a, b :: t => Memory.writeAll (m.write a b) (a + 1) t

/-- A run of `n` bytes from an address on. -/
def Memory.readAll (m : Memory) (a n : Nat) : List Byte := (List.range n).map fun k => m.read (a + k)

/-- The word at an address (R174). -/
def Memory.readWord (m : Memory) (a : Nat) : Word := wordOf (m.read a) (m.read (a + 1))

/-- The canonical form from a lowest address on: addresses rise, lie below 224 and list no zero. -/
def Memory.wfFrom : Nat → Memory → Bool
  | _, [] => true
  | lo, (k, v) :: t => decide (lo ≤ k) && decide (k < imageSize) && decide (v ≠ 0) && Memory.wfFrom (k + 1) t

/-- The canonical form (log 1). -/
def Memory.wf (m : Memory) : Bool := Memory.wfFrom 0 m

/-! ## Roles and swap (R1) -/

/-- The image of the active bank (R1). -/
def BankStore.activeImage (b : BankStore) : Memory :=
  match b.active with
  | .a => b.imgA
  | .b => b.imgB

/-- The image of the shadow bank (R1). -/
def BankStore.shadowImage (b : BankStore) : Memory :=
  match b.active with
  | .a => b.imgB
  | .b => b.imgA

/-- Replaces the shadow image (R9). -/
def BankStore.setShadow (b : BankStore) (m : Memory) : BankStore :=
  match b.active with
  | .a => { b with imgB := m }
  | .b => { b with imgA := m }

/-- The other bank. -/
def BankName.other : BankName → BankName
  | .a => .b
  | .b => .a

/-- A swap: the roles are exchanged, no bytes are copied, the new shadow is EDITABLE and the active
condition VALID (R1, R6, R7). -/
def BankStore.swap (b : BankStore) : BankStore :=
  { b with active := b.active.other, cond := .valid, shadow := .editable }

/-- The period length P of the active bank (R2, R5). -/
def State.activeP (s : State) : Nat := (s.bank.activeImage.readWord 0).toNat

/-! ## Fault Log (R107) -/

/-- Appends a record, which takes the next record number, or drops it with 8 held (R107). -/
def FaultLog.append (l : FaultLog) (r : FaultRecord) : FaultLog :=
  if l.records.length < 8 then
    { records := l.records ++ [({ r with number := l.next } : FaultRecord)], next := l.next + 1,
      dropped := l.dropped }
  else { l with dropped := min 255 (l.dropped + 1) }

/-- Appends a record of the present moment: node state, period number and tick as they are held (R105). -/
def State.record (s : State) (cause : FaultCause) (group : Option (Fin 2)) (input : Option (Fin 4))
    (channel : Option (Fin 6)) : State :=
  { s with
    log := s.log.append (FaultRecord.mk 0 cause s.node.state s.timer.period s.timer.tick group input channel) }

/-! ## Replay cache (R155 to R157) -/

/-- Completes a PENDING record of a sequence and kind; without one nothing changes (R157; log 18). -/
def Management.complete (m : Management) (seq : Byte) (kind : ReqKind) (st : Status) (data : List Byte) :
    Management :=
  { m with cache := m.cache.map fun r =>
      if r.seq = seq ∧ r.kind = kind ∧ r.status = .pending then { r with status := st, data := data } else r }

/-- The record that answers a re-sent request (R156). -/
def Management.lookup (m : Management) (seq : Byte) (kind : ReqKind) : Option CacheRecord :=
  m.cache.find? fun r => decide (r.seq = seq) && decide (r.kind = kind)

/-- The cache without its oldest record whose status is not PENDING (R156). -/
def dropOldestSettled : List CacheRecord → List CacheRecord
  | [] => []
  | r :: t => if r.status = .pending then r :: dropOldestSettled t else t

/-- Makes room for a new record: a record with the sequence is evicted; without one, of 4 held records
the oldest that is not PENDING is evicted (R156). -/
def Management.makeRoom (m : Management) (seq : Byte) : Management :=
  { m with cache :=
      if m.cache.any fun r => decide (r.seq = seq) then m.cache.filter fun r => decide (r.seq ≠ seq)
      else if m.cache.length < 4 then m.cache
      else dropOldestSettled m.cache }

/-- Inserts a record as the newest (R155). -/
def Management.insert (m : Management) (r : CacheRecord) : Management := { m with cache := m.cache ++ [r] }

/-! ## What the blocks do at a flush and at the end of a commit -/

/-- Empties the six queues and the staging area, counting nothing (R59). It leaves the walker as it is: the model follows
R133 and R145 against the last sentences of R140 (log 32). -/
def State.flush (s : State) : State :=
  { s with
    queue := s.queue.map fun q => { q with records := [] }
    slots := { s.slots with staging := [] } }

/-- Cancels a pending commit: the record is cleared, the shadow becomes EDITABLE, and the cache record
becomes CANCELLED (R19). -/
def State.cancelCommit (s : State) : State :=
  match s.bank.commit with
  | none => s
  | some p =>
    { s with
      bank := { s.bank with commit := none, shadow := .editable }
      mgmt := s.mgmt.complete p.seq .commit .cancelled [] }

end Sys2Proof.Machine
end

