-- ==== Sys2Proof/Machine/Operands.lean ====
section
/-! DEFINITION. The codes of the enumerated fields and the byte layouts (spec/11, R174 to R176): how frames,
images, entries and records spell their fields. -/

namespace Sys2Proof.Machine

/-! ## Codes (11.8) -/

def NodeState.code : NodeState → Byte
  | .unaddressed => 0x00
  | .config => 0x01
  | .armed => 0x02
  | .run => 0x03
  | .safe => 0x04

def SafeCause.code : SafeCause → Byte
  | .none => 0x00
  | .stop => 0x01
  | .linkLoss => 0x02
  | .supplyLoss => 0x03
  | .holdLimit => 0x04

def FaultCause.code : FaultCause → Byte
  | .tripTimed => 0x01
  | .tripLatch => 0x02
  | .escalated => 0x03
  | .linkLoss => 0x04
  | .supplyLoss => 0x05
  | .holdLimit => 0x06

def GroupState.code : GroupState → Byte
  | .enabled => 0x00
  | .cycleOff => 0x01
  | .timedOff => 0x02
  | .latched => 0x03

def ShadowState.code : ShadowState → Byte
  | .editable => 0x00
  | .loading => 0x01
  | .checking => 0x02
  | .frozen => 0x03
  | .broken => 0x04

def Polarity.code : Polarity → Byte
  | .activeLow => 0x00
  | .activeHigh => 0x01

def Polarity.ofCode (b : Byte) : Option Polarity :=
  if b = 0x00 then some .activeLow else if b = 0x01 then some .activeHigh else none

def TripAction.code : TripAction → Byte
  | .cycle => 0x01
  | .timed => 0x02
  | .latch => 0x03

def TripAction.ofCode (b : Byte) : Option TripAction :=
  if b = 0x01 then some .cycle else if b = 0x02 then some .timed else if b = 0x03 then some .latch else none

def Pattern.ofCode (b : Byte) : Option Pattern :=
  if b = 0x00 then some .off
  else if b = 0x01 then some .leading
  else if b = 0x02 then some .trailing
  else if b = 0x03 then some .centered
  else if b = 0x04 then some .fixed
  else none

def Level.ofCode (b : Byte) : Option Level :=
  if b = 0x00 then some .off else if b = 0x01 then some .hi else if b = 0x02 then some .lo else none

/-- The code of a content selector other than none. -/
def Content.ofCode (b : Byte) : Option Content :=
  if b = 0x01 then some .state else if b = 0x02 then some .trips else if b = 0x03 then some .echo else none

def ReqKind.code : ReqKind → Byte
  | .identify => 0x01
  | .readEntry => 0x02
  | .writeEntry => 0x03
  | .copyActive => 0x04
  | .commit => 0x05
  | .arm => 0x06
  | .align => 0x07
  | .trim => 0x08
  | .stop => 0x09
  | .clear => 0x0A
  | .restart => 0x0B
  | .tripAck => 0x0C
  | .faultRead => 0x0D
  | .faultPop => 0x0E
  | .countersRead => 0x0F
  | .countersClear => 0x10
  | .loadBegin => 0x11
  | .loadData => 0x12
  | .loadEnd => 0x13
  | .loadCancel => 0x14

def ReqKind.ofCode (b : Byte) : Option ReqKind :=
  match b.toNat with
  | 1 => some .identify
  | 2 => some .readEntry
  | 3 => some .writeEntry
  | 4 => some .copyActive
  | 5 => some .commit
  | 6 => some .arm
  | 7 => some .align
  | 8 => some .trim
  | 9 => some .stop
  | 10 => some .clear
  | 11 => some .restart
  | 12 => some .tripAck
  | 13 => some .faultRead
  | 14 => some .faultPop
  | 15 => some .countersRead
  | 16 => some .countersClear
  | 17 => some .loadBegin
  | 18 => some .loadData
  | 19 => some .loadEnd
  | 20 => some .loadCancel
  | _ => none

def Status.code : Status → Byte
  | .done => 0x00
  | .pending => 0x01
  | .cancelled => 0x02
  | .refusedState => 0x10
  | .refusedBusy => 0x11
  | .invalid => 0x12
  | .checkFailed => 0x13
  | .late => 0x14
  | .incomplete => 0x15
  | .outOfOrder => 0x16
  | .active => 0x17
  | .noRoom => 0x18
  | .unknownRequest => 0x19

def Reason.code : Reason → Byte
  | .periodRange => 0x01
  | .holdRange => 0x02
  | .lossRange => 0x03
  | .reservedNonzero => 0x04
  | .patternUnknown => 0x05
  | .groupRange => 0x06
  | .deadTimeRange => 0x07
  | .onTimeLimits => 0x08
  | .phaseRange => 0x09
  | .edgeCount => 0x0A
  | .edgeOrder => 0x0B
  | .edgeRange => 0x0C
  | .edgeState => 0x0D
  | .slotKind => 0x0E
  | .slotDuplicate => 0x0F
  | .slotRange => 0x10
  | .slotOverlap => 0x11
  | .selectorUnknown => 0x12
  | .unboundChannel => 0x13
  | .loadIncomplete => 0x20
  | .checksumMismatch => 0x21

/-- Frame kinds (11.1). -/
def kindCycle : Byte := 0x01
def kindMgmt : Byte := 0x02
def kindRollcall : Byte := 0x03

/-! ## The bank image (11.5) -/

/-- Image position of channel record `c`. -/
def channelBase (c : Nat) : Nat := 16 + 24 * c

/-- Image position of slot-map entry `e`. -/
def slotBase (e : Nat) : Nat := 160 + 4 * e

/-- Period length P (R2). -/
def imageP (m : Memory) : Nat := (m.readWord 0).toNat

/-- Hold limit (R2). -/
def imageHoldLimit (m : Memory) : Nat := (m.read 2).toNat

/-- Loss timeout (R2). -/
def imageLossTimeout (m : Memory) : Nat := (m.read 3).toNat

/-- Bank tag (R2). -/
def imageTag (m : Memory) : Word := m.readWord 4

/-- A byte of channel record `c`. -/
def channelByte (m : Memory) (c : Fin 6) (i : Nat) : Byte := m.read (channelBase c + i)

/-- A word of channel record `c`. -/
def channelWord (m : Memory) (c : Fin 6) (i : Nat) : Word := m.readWord (channelBase c + i)

/-- The pattern of channel `c`; an undefined code cannot stand in a VALID bank and reads as OFF (log 17). -/
def channelPattern (m : Memory) (c : Fin 6) : Pattern := (Pattern.ofCode (channelByte m c 0)).getD .off

/-- LEADING, TRAILING and CENTERED channels are setpoint-driven (R3). -/
def Pattern.driven : Pattern → Bool
  | .leading => true
  | .trailing => true
  | .centered => true
  | .off => false
  | .fixed => false

/-- The group of channel `c`; an undefined code cannot stand in a VALID bank and reads as 1 (log 17). -/
def channelGroup (m : Memory) (c : Fin 6) : Fin 2 := if channelByte m c 1 = 0 then 0 else 1

/-- Dead time (R3). -/
def channelDead (m : Memory) (c : Fin 6) : Nat := (channelWord m c 2).toNat

/-- Minimum on-time (R3). -/
def channelMin (m : Memory) (c : Fin 6) : Word := channelWord m c 4

/-- Maximum on-time (R3). -/
def channelMax (m : Memory) (c : Fin 6) : Word := channelWord m c 6

/-- Default phase (R3). -/
def channelPhase (m : Memory) (c : Fin 6) : Word := channelWord m c 8

/-- The hold action is SAFE: 00H is OFF and every other value is SAFE (R175). -/
def channelHoldSafe (m : Memory) (c : Fin 6) : Bool := decide (channelByte m c 10 ≠ 0)

/-- Fixed edge count as stored (R3). -/
def channelEdgeCount (m : Memory) (c : Fin 6) : Nat := (channelByte m c 11).toNat

/-- Edge `k`'s time (11.5). -/
def edgeTime (m : Memory) (c : Fin 6) (k : Nat) : Nat := (channelWord m c (12 + 3 * k)).toNat

/-- Edge `k`'s state byte (11.5). -/
def edgeCode (m : Memory) (c : Fin 6) (k : Nat) : Byte := channelByte m c (14 + 3 * k)

/-- The valid entries of the fixed edge list; an undefined state cannot stand in a VALID bank and reads as
OFF (log 17). -/
def channelEdges (m : Memory) (c : Fin 6) : List Interval :=
  (List.range (min 4 (channelEdgeCount m c))).map fun k =>
    ⟨edgeTime m c k, (Level.ofCode (edgeCode m c k)).getD .off⟩

/-- Slot-map entry `e`; the channel byte carries the first channel in its upper four bits and the count in
its lower four (R174). -/
def slotEntry (m : Memory) (e : Nat) : SlotEntry :=
  { id := m.read (slotBase e), kind := m.read (slotBase e + 1), selector := m.read (slotBase e + 2),
    first := (m.read (slotBase e + 3)).toNat / 16, count := (m.read (slotBase e + 3)).toNat % 16 }

/-- The sixteen entries in order. -/
def slotEntries (m : Memory) : List SlotEntry := (List.range 16).map (slotEntry m)

def slotKindConsume : Byte := 0x01
def slotKindProduce : Byte := 0x02

/-! ## Entry tables (R162) -/

/-- The six tables. -/
inductive Table where
  | header
  | channel
  | slot
  | tripInput
  | group
  | node
deriving DecidableEq, Repr

def Table.ofCode (b : Byte) : Option Table :=
  match b.toNat with
  | 1 => some .header
  | 2 => some .channel
  | 3 => some .slot
  | 4 => some .tripInput
  | 5 => some .group
  | 6 => some .node
  | _ => none

/-- Entry size in bytes (R162). -/
def Table.size : Table → Nat
  | .header => 16
  | .channel => 24
  | .slot => 4
  | .tripInput => 8
  | .group => 2
  | .node => 2

/-- Number of entries (R162). -/
def Table.entries : Table → Nat
  | .header => 1
  | .channel => 6
  | .slot => 16
  | .tripInput => 4
  | .group => 2
  | .node => 1

/-- The tables held by the Bank Store (R162). -/
def Table.isBank : Table → Bool
  | .header => true
  | .channel => true
  | .slot => true
  | .tripInput => false
  | .group => false
  | .node => false

/-- Image position of an entry of a bank table (R162, 11.5). -/
def Table.base (t : Table) (index : Nat) : Nat :=
  match t with
  | .channel => channelBase index
  | .slot => slotBase index
  | _ => 0

def roleActive : Byte := 0x01
def roleShadow : Byte := 0x02

/-! ## Protection and node entries (11.6) -/

/-- The group byte of a TRIP INPUT entry; NONE is FFH (R176). -/
def tripGroupCode : Option (Fin 2) → Byte
  | none => 0xFF
  | some g => if g = 0 then 0x00 else 0x01

def tripGroupOfCode (b : Byte) : Option (Option (Fin 2)) :=
  if b = 0x00 then some (some 0) else if b = 0x01 then some (some 1) else if b = 0xFF then some none else none

/-- A TRIP INPUT entry's eight bytes. -/
def TripEntry.encode (t : TripEntry) : List Byte :=
  [t.polarity.code, tripGroupCode t.group, t.filter] ++ wordBytes t.blanking ++ [t.action.code]
    ++ wordBytes t.delay

/-- The entry eight bytes spell, when every field is within R82's values. -/
def TripEntry.decode (l : List Byte) : Option TripEntry :=
  match Polarity.ofCode (byteAt l 0), tripGroupOfCode (byteAt l 1), TripAction.ofCode (byteAt l 5) with
  | some p, some g, some a =>
    if (wordAt l 3).toNat ≤ 1023 ∧ 1 ≤ (wordAt l 6).toNat then
      some { polarity := p, group := g, filter := byteAt l 2, blanking := wordAt l 3, action := a,
             delay := wordAt l 6 }
    else none
  | _, _, _ => none

/-- A GROUP entry's two bytes. -/
def GroupEntry.encode (g : GroupEntry) : List Byte := [g.e, g.w]

/-- The entry two bytes spell; W = 0 is out of range (R83). -/
def GroupEntry.decode (l : List Byte) : Option GroupEntry :=
  if byteAt l 1 = 0 then none else some ⟨byteAt l 0, byteAt l 1⟩

/-! ## Records (11.7) -/

/-- An optional one-byte field, FFH when absent (R176). -/
def optByte (n : Nat) (x : Option (Fin n)) : Byte :=
  match x with
  | none => 0xFF
  | some i => BitVec.ofNat 8 i.val

/-- A fault record's twelve bytes; the tick takes three of them (R174). -/
def FaultRecord.encode (r : FaultRecord) : List Byte :=
  wordBytes r.number ++ [r.cause.code, r.state.code] ++ wordBytes r.period
    ++ [BitVec.ofNat 8 (r.tick / 65536), BitVec.ofNat 8 (r.tick / 256), BitVec.ofNat 8 r.tick]
    ++ [optByte 2 r.group, optByte 4 r.input, optByte 6 r.channel]

/-- The identity entry's eight bytes (R131). -/
def identityEntry (st : NodeState) : List Byte := [0x66, 0x10, 0x02, 0x06, 0x04, 0x02, 0x07, st.code]

/-! ## Request kinds (R154) -/

/-- The kind is recorded in the replay cache. -/
def ReqKind.cached : ReqKind → Bool
  | .identify => false
  | .readEntry => false
  | .restart => false
  | .faultRead => false
  | .countersRead => false
  | _ => true

/-- The kind may be broadcast (R159). -/
def ReqKind.mayBroadcast : ReqKind → Bool
  | .arm => true
  | .commit => true
  | .stop => true
  | .clear => true
  | .trim => true
  | .countersClear => true
  | .restart => true
  | _ => false

/-- The table named by a request's first argument byte. -/
def argTable (args : List Byte) : Option Table :=
  match args with
  | [] => none
  | b :: _ => Table.ofCode b

/-- The argument length is one the kind allows. -/
def argLengthOk (k : ReqKind) (args : List Byte) : Bool :=
  match k with
  | .readEntry => decide (args.length = 3)
  | .writeEntry =>
    match argTable args with
    | some t => decide (args.length = 3 + t.size)
    | none => false
  | .commit => decide (args.length = 0) || decide (args.length = 2)
  | .arm => decide (args.length = 6)
  | .align => decide (args.length = 4)
  | .trim => decide (args.length = 2)
  | .tripAck => decide (args.length = 1)
  | .faultPop => decide (args.length = 2)
  | .loadBegin => decide (args.length = 4)
  | .loadData => decide (args.length = 33)
  | _ => decide (args.length = 0)

/-- The largest reply data length of the kind. -/
def largestData (k : ReqKind) (args : List Byte) : Nat :=
  match k with
  | .identify => 15
  | .readEntry =>
    match argTable args with
    | some t => t.size
    | none => 0
  | .commit => 2
  | .arm => 1
  | .trim => 1
  | .faultRead => 14
  | .faultPop => 1
  | .countersRead => 32
  | .loadData => 1
  | .loadEnd => 2
  | _ => 0

end Sys2Proof.Machine
end

