-- ==== Sys2Proof/Machine/Flags.lean ====
section
/-! DEFINITION. What the node shows of its state: live input levels, the tests over them, FAULT_N, the gate
pins, and the contents of the produce slots (spec/05 R84 R102, spec/04 R63 R73, spec/08 R142 to R144). -/

namespace Sys2Proof.Machine

/-- The live level of an input is ASSERTED: its pin is at the level its polarity names (R84). -/
def TripInput.asserted (i : TripInput) : Bool :=
  match i.entry.polarity with
  | .activeLow => !i.pin
  | .activeHigh => i.pin

/-- The node is in ARMED or RUN. -/
def NodeState.live (n : NodeState) : Bool :=
  match n with
  | .armed => true
  | .run => true
  | _ => false

/-- Detection runs for an input: in ARMED and RUN, for a group of 0 or 1 (R85). -/
def TripInput.detecting (i : TripInput) (n : NodeState) : Bool := n.live && i.entry.group.isSome

/-- Some input bound to group `g` with action `a` is ASSERTED (R94, R95, R99). -/
def Protection.anyAsserted (p : Protection) (g : Fin 2) (a : TripAction) : Bool :=
  p.inputs.toList.any fun i => decide (i.entry.group = some g) && decide (i.entry.action = a) && i.asserted

/-- The longest restore delay among the ASSERTED TIMED inputs of a group (R95). -/
def Protection.longestDelay (p : Protection) (g : Fin 2) : Nat :=
  ((p.inputs.toList.filter fun i =>
      decide (i.entry.group = some g) && decide (i.entry.action = .timed) && i.asserted).map
    fun i => i.entry.delay.toNat).foldl max 0

/-- The protection group of channel `c` in the active bank (R73, R78). -/
def State.groupOf (s : State) (c : Fin 6) : Fin 2 := channelGroup s.bank.activeImage c

/-- The state of channel `c`'s protection group. -/
def State.groupState (s : State) (c : Fin 6) : GroupState := (s.prot.groups.get (s.groupOf c)).state

/-- FAULT_N is asserted: in SAFE or with a group LATCHED (R102). -/
def State.faultAsserted (s : State) : Bool :=
  decide (s.node.state = .safe) || decide (s.prot.groups.g0.state = .latched)
    || decide (s.prot.groups.g1.state = .latched)

/-- GHc is active (R63). -/
def State.gateHigh (s : State) (c : Fin 6) : Bool := decide ((s.gen.get c).output = .hi)

/-- GLc is active (R63). -/
def State.gateLow (s : State) (c : Fin 6) : Bool := decide ((s.gen.get c).output = .lo)

/-- The planned state of the interval in force (R63). -/
def ChannelGen.level (g : ChannelGen) : Level := ((g.plan[g.cur]?).map Interval.level).getD .off

/-- What the pins of channel `c` show by R73: OFF outside RUN, with the group not ENABLED or with the
hold-until-next-edge flag set; else the plan's state, OFF in the dead-time ticks of a run (R70). -/
def State.visible (s : State) (c : Fin 6) : Level :=
  if s.node.state = .run ∧ s.groupState c = .enabled ∧ (s.gen.get c).flag = none
      ∧ (s.gen.get c).dead = none then (s.gen.get c).level
  else .off

/-- The live input levels byte: TRIPk in bit k, bits 4..7 zero (R174). -/
def Protection.levelsByte (p : Protection) : Byte :=
  BitVec.ofNat 8 ((bif p.inputs.i0.asserted then 1 else 0) + (bif p.inputs.i1.asserted then 2 else 0)
    + (bif p.inputs.i2.asserted then 4 else 0) + (bif p.inputs.i3.asserted then 8 else 0))

/-- The fault log count as a byte (R106). -/
def FaultLog.countByte (l : FaultLog) : Byte := BitVec.ofNat 8 l.records.length

/-- The STATE content (R142). -/
def State.stateContent (s : State) : List Byte :=
  [s.node.state.code, s.node.cause.code, s.prot.groups.g0.state.code, s.prot.groups.g1.state.code]
    ++ wordBytes s.timer.period ++ wordBytes (imageTag s.bank.activeImage)
    ++ [s.log.countByte, s.bank.shadow.code]

/-- The TRIPS content (R143). -/
def State.tripsContent (s : State) : List Byte :=
  [s.prot.levelsByte] ++ wordBytes (BitVec.ofNat 16 s.counters.cycleTripsG0)
    ++ wordBytes (BitVec.ofNat 16 s.counters.cycleTripsG1) ++ [s.log.countByte]

/-- Channel `n` of the six, when there is one. -/
def channelOf (n : Nat) : Option (Fin 6) := if h : n < 6 then some ⟨n, h⟩ else none

/-- The ECHO content of channels first .. first + count − 1 (R144). -/
def State.echoContent (s : State) (first count : Nat) : List Byte :=
  (List.range count).flatMap fun k =>
    match channelOf (first + k) with
    | some c => wordBytes (s.gen.get c).echo
    | none => []

/-- The content a produce slot carries (R141). -/
def State.content (s : State) (k : Content) (first count : Nat) : List Byte :=
  match k with
  | .state => s.stateContent
  | .trips => s.tripsContent
  | .echo => s.echoContent first count

/-- The content size fixed by the selector (R141). -/
def Content.size (k : Content) (count : Nat) : Nat :=
  match k with
  | .state => 10
  | .trips => 6
  | .echo => 2 * count

end Sys2Proof.Machine
end

