-- ==== Sys2Proof/Machine/Gates.lean ====
section
/-! DEFINITION. The Pattern Generator (spec/04): building plans, driving the gate pins and reporting their
changes, planned changes, dead times and hold-until-next-edge flags. -/

namespace Sys2Proof.Machine

/-! ## Driving the pins (R73, R79, R86) -/

/-- Some channel of group `g` changes a gate pin when its output takes the visible state (R79). -/
def State.pinChange (s : State) (g : Fin 2) : Bool :=
  channels.any fun c => decide (s.groupOf c = g) && decide ((s.gen.get c).output ≠ s.visible c)

/-- An input's blanking after the reported pin changes of its group (R86). -/
def TripInput.reblank (i : TripInput) (changed : Fin 2 → Bool) : TripInput :=
  match i.entry.group with
  | none => i
  | some g => if changed g then { i with blank := i.entry.blanking.toNat } else i

/-- Every output state takes what R73 shows, and each pin change is reported: it restarts the blanking of
the inputs of its channel's group (R79, R86). Outside ARMED and RUN no input is blanked (R85). -/
def State.drive (s : State) : State :=
  { s with
    gen := s.gen.mapIdx fun c g => { g with output := s.visible c }
    prot := { s.prot with
      inputs := s.prot.inputs.map fun i => if s.node.state.live then i.reblank s.pinChange else i } }

/-- A channel after its node left RUN: output OFF, all-OFF plan, closing state OFF, flag clear; the echo
value is kept (R74). -/
def ChannelGen.quiet (g : ChannelGen) : ChannelGen :=
  { plan := allOff, closing := .off, output := .off, flag := none, echo := g.echo, cur := 0, dead := none }

/-- Every channel quiet (R74). The pin changes reported here blank nothing, since detection stops with the
same event (R85, R100). -/
def State.quietGates (s : State) : State := { s with gen := s.gen.map ChannelGen.quiet }

/-- Every echo value at FFFFH (R81). -/
def State.blankEchoes (s : State) : State := { s with gen := s.gen.map fun g => { g with echo := 0xFFFF } }

/-- A group enabled at the present tick in RUN: the hold-until-next-edge flag of each of its channels is set
(R76). In ARMED and SAFE no flag is set. -/
def State.holdUntilEdge (s : State) (g : Fin 2) : State :=
  if s.node.state = .run then
    { s with gen := s.gen.mapIdx fun c x => if s.groupOf c = g then { x with flag := some s.timer.tick } else x }
  else s

/-! ## Plans (R64 to R69) -/

/-- A part of a plan with its end, first tick included and end excluded. -/
structure Span where
  first : Nat
  stop : Nat
  level : Level
deriving DecidableEq, Repr

/-- The spans of a pattern's unshifted plan, empty ones among them (R66). -/
def patternSpans (p : Pattern) (L on : Nat) : List Span :=
  match p with
  | .leading => [Span.mk 0 on .hi, Span.mk on L .lo]
  | .trailing => [Span.mk 0 (L - on) .lo, Span.mk (L - on) L .hi]
  | .centered =>
    [Span.mk 0 ((L - on) / 2) .lo, Span.mk ((L - on) / 2) ((L - on) / 2 + on) .hi,
     Span.mk ((L - on) / 2 + on) L .lo]
  | .off => [Span.mk 0 L .off]
  | .fixed => [Span.mk 0 L .off]

/-- The unshifted plan of a setpoint-driven pattern, empty intervals left out (R66). -/
def unshifted (p : Pattern) (L on : Nat) : List Span :=
  (patternSpans p L on).filter fun x => decide (x.first < x.stop)

/-- The part of a span that a shift by `p` carries past the end of the period, at its new place (R67). -/
def Span.wrapped (L p : Nat) (x : Span) : Option Span :=
  if L < x.stop + p then some ⟨max (x.first + p) L - L, x.stop + p - L, x.level⟩ else none

/-- The part of a span that a shift by `p` leaves inside the period, at its new place (R67). -/
def Span.shifted (L p : Nat) (x : Span) : Option Span :=
  if x.first + p < L then some ⟨x.first + p, min (x.stop + p) L, x.level⟩ else none

/-- The spans shifted later by `p` ticks, `p` below `L`, what passes the end coming first (R67). -/
def shift (L p : Nat) (l : List Span) : List Span :=
  l.filterMap (Span.wrapped L p) ++ l.filterMap (Span.shifted L p)

/-- Joins intervals of equal planned state that follow one another (R63). -/
def joinFrom (a : Interval) : List Interval → List Interval
  | [] => [a]
  | b :: t => if a.level = b.level then joinFrom a t else a :: joinFrom b t

/-- The intervals of a plan, adjacent equal states joined; an empty list is the all-OFF plan (R63). -/
def join : List Interval → List Interval
  | [] => allOff
  | a :: t => joinFrom a t

/-- The plan of a setpoint-driven channel (R66, R67). -/
def drivenPlan (p : Pattern) (L on phase : Nat) : List Interval :=
  join ((shift L (phase % L) (unshifted p L on)).map fun x => ⟨x.first, x.level⟩)

/-- The plan of a FIXED channel from the edges that occur in a period of `L` ticks (R69). -/
def fixedPlan (edges : List Interval) (L : Nat) : List Interval :=
  let occur := edges.filter fun e => decide (e.first < L)
  match occur with
  | [] => allOff
  | e :: t => if e.first = 0 then joinFrom e t else joinFrom ⟨0, (t.getLast?.getD e).level⟩ (e :: t)

/-- The planned state of a plan at a tick (R63). -/
def planLevel (plan : List Interval) (k : Nat) : Level :=
  ((plan.filter fun x => decide (x.first ≤ k)).getLast?.map Interval.level).getD .off

/-- Step 1 of the clamp: the limits of the channel record (R65). -/
def clampLimits (lo hi on : Nat) : Nat := if on < lo then lo else if hi < on then hi else on

/-- The clamped on-time (R65). -/
def clamp (lo hi L on : Nat) : Nat := min (clampLimits lo hi on) L

/-- How many of the two clamp steps change the value (R65). -/
def clampCount (lo hi L on : Nat) : Nat :=
  (if clampLimits lo hi on = on then 0 else 1) + (if L < clampLimits lo hi on then 1 else 0)

/-- What the Setpoint Queue Unit hands over for one channel (R58). -/
inductive Handed where
  | use (onTime phase : Word)
  | holdOff
  | nothing
deriving DecidableEq, Repr

/-- The on-time clamped with the limits of a bank's channel record (R65). -/
def clampFor (m : Memory) (c : Fin 6) (L : Nat) (onTime : Word) : Nat :=
  clamp (channelMin m c).toNat (channelMax m c).toNat L onTime.toNat

/-- The new plan of a channel from its outcome and its record in the bank of the new period (R64). -/
def planFor (m : Memory) (c : Fin 6) (L : Nat) : Handed → List Interval
  | .use onTime phase => drivenPlan (channelPattern m c) L (clampFor m c L onTime) phase.toNat
  | .holdOff => allOff
  | .nothing => if channelPattern m c = .fixed then fixedPlan (channelEdges m c) L else allOff

/-- The echo value set with the plan (R80). -/
def echoFor (m : Memory) (c : Fin 6) (L : Nat) : Handed → Word
  | .use onTime _ => BitVec.ofNat 16 (clampFor m c L onTime)
  | .holdOff => 0xFFFF
  | .nothing => 0xFFFF

/-- Clamp steps counted for a channel at a boundary (R65). -/
def clampsFor (m : Memory) (c : Fin 6) (L : Nat) : Handed → Nat
  | .use onTime _ => clampCount (channelMin m c).toNat (channelMax m c).toNat L onTime.toNat
  | .holdOff => 0
  | .nothing => 0

/-! ## Runs and dead time (R70 to R72) -/

/-- HI before LO or LO before HI: a direct change (R70). -/
def directChange (a b : Level) : Bool :=
  match a, b with
  | .hi, .lo => true
  | .lo, .hi => true
  | _, _ => false

/-- Dead-time ticks left of a run that began `late` ticks ago: with a direct change the dead time less those
ticks, else none (R70). -/
def deadAfter (prev next : Level) (d late : Nat) : Option Nat :=
  if directChange prev next ∧ late < d then some (d - late) else none

/-- The planned state of interval `k` of a plan. -/
def levelOf (plan : List Interval) (k : Nat) : Level := ((plan[k]?).map Interval.level).getD .off

/-- The first tick of interval `k` of a plan. -/
def firstOf (plan : List Interval) (k : Nat) : Nat := ((plan[k]?).map Interval.first).getD 0

/-- A channel at the end of its period of `L` ticks: its last interval is in force, and a run that began with
it after changes not taken as commands is in its dead time as R70 gives it (log 4). -/
def ChannelGen.finish (g : ChannelGen) (d L : Nat) : ChannelGen :=
  if g.cur + 1 < g.plan.length then
    { g with
      cur := g.plan.length - 1
      dead := deadAfter (levelOf g.plan (g.plan.length - 2)) (levelOf g.plan (g.plan.length - 1)) d
        (L - firstOf g.plan (g.plan.length - 1)) }
  else g

/-- The dead time at tick 0 of a new period: a run that goes on keeps counting, a direct change begins a
dead time of the new bank's length, any other start has none (R71). -/
def deadAtStart (closing first : Level) (carried : Option Nat) (d : Nat) : Option Nat :=
  if closing = first ∧ first ≠ .off then
    match carried with
    | some r => if r = 0 then none else some r
    | none => none
  else deadAfter closing first d 0

/-- A channel at the start of a period with a new plan (R64, R71): the planned state of the old plan's last
tick becomes the closing state, and the flag is clear (R76). -/
def ChannelGen.start (g : ChannelGen) (plan : List Interval) (echo : Word) (d : Nat) : ChannelGen :=
  { plan := plan, closing := g.level, output := g.output, flag := none, echo := echo, cur := 0,
    dead := deadAtStart g.level (levelOf plan 0) g.dead d }

/-- The tick of the next planned change of a channel's plan, when there is one (R63). -/
def ChannelGen.nextChange (g : ChannelGen) : Option Nat := (g.plan[g.cur + 1]?).map Interval.first

/-- A channel at a planned change at tick `a`, taken at tick `now`: the next interval is in force, a direct
change begins the dead time `d`, and a flag set at an earlier tick is cleared (R70, R76). -/
def ChannelGen.change (g : ChannelGen) (a now d : Nat) : ChannelGen :=
  { g with
    cur := g.cur + 1
    dead := deadAfter (levelOf g.plan g.cur) (levelOf g.plan (g.cur + 1)) d (now - a)
    flag := match g.flag with
      | some k => if k < a then none else some k
      | none => none }

end Sys2Proof.Machine
end

