-- ==== Sys2Proof/Machine/Time.lean ====
section
/-! DEFINITION. The passing of ticks (logs 3 and 4): what every timer, count and dead time becomes when `n`
ticks pass in which no event is taken, and which events are then due. -/

namespace Sys2Proof.Machine

/-- The tick count advances; the tick after L − 1 is the boundary's, which stays owed until it is taken
(R22, R23; log 4). -/
def PeriodTimer.elapse (t : PeriodTimer) (n : Nat) : PeriodTimer :=
  if t.running ∧ t.wrapDue = false then
    if t.tick + n < t.len then { t with tick := t.tick + n }
    else { t with tick := t.len - 1, wrapDue := true }
  else t

/-- How many of the ticks judged between now and `n` ticks on, the present one left out, are blanked
(R86). -/
def TripInput.blankedAhead (i : TripInput) (n : Nat) : Nat := min (n - 1) (i.blank - 1)

/-- The filter count after the present tick is judged, for an ASSERTED input with a clear episode flag
(R86, R87). -/
def TripInput.judged (i : TripInput) : Nat :=
  if i.blanked then 0 else min i.entry.filter.toNat (i.count + 1)

/-- The filter count after `n` ticks are judged, the present one the first of them (R86, R87). A count equal
to the filter stands for a trip that is due. -/
def TripInput.countAfter (i : TripInput) (n : Nat) : Nat :=
  if i.asserted then
    if i.episode then (if i.blanked ∨ 1 ≤ i.blankedAhead n then 0 else i.count)
    else if 1 ≤ i.blankedAhead n then min i.entry.filter.toNat (n - 1 - i.blankedAhead n)
    else min i.entry.filter.toNat (i.judged + (n - 1))
  else 0

/-- An input after `n` ≥ 1 ticks: its count, its blanking less `n`, whether the tick reached is blanked, and
an episode that a DEASSERTED tick ends (R86 to R88). Where detection does not run nothing is held (R85). -/
def TripInput.elapse (i : TripInput) (n : Nat) (n' : NodeState) : TripInput :=
  if i.detecting n' then
    { i with
      count := i.countAfter n
      blank := i.blank - n
      blanked := decide (n < i.blank)
      episode := i.episode && i.asserted }
  else { i with count := 0, blank := 0, blanked := false, episode := false }

/-- The restore timer of a TIMED_OFF group runs in ARMED and RUN (R95). -/
def ProtGroup.elapse (g : ProtGroup) (n : Nat) (n' : NodeState) : ProtGroup :=
  if n'.live ∧ g.state = .timedOff then { g with timer := g.timer - n } else g

/-- The dead time of the run in progress (R70). -/
def ChannelGen.elapse (g : ChannelGen) (n : Nat) : ChannelGen := { g with dead := g.dead.map fun r => r - n }

/-- The gap timer runs in RECEIVING (R169), the check in CHECKING (R171). -/
def LoadJob.elapse (l : LoadJob) (n : Nat) : LoadJob :=
  match l.state with
  | .idle => l
  | .receiving => { l with gap := l.gap - n }
  | .checking => { l with checkLeft := l.checkLeft - n }

/-- `n` ticks in which no event is taken. -/
def State.elapse (s : State) (n : Nat) : State :=
  if n = 0 then s
  else
    { s with
      timer := s.timer.elapse n
      prot :=
        { inputs := s.prot.inputs.map fun i => i.elapse n s.node.state
          groups := s.prot.groups.map fun g => g.elapse n s.node.state }
      gen := s.gen.map fun g => g.elapse n
      load := s.load.elapse n }

/-! ## How long until an event is due (log 4) -/

/-- Ticks until the boundary (R23). -/
def PeriodTimer.toBoundary (t : PeriodTimer) : Nat := if t.wrapDue then 0 else t.len - t.tick

/-- Ticks until the trip of an ASSERTED input with a clear episode flag is detected, if it stays ASSERTED
and no further pin change blanks it (R86, R87). -/
def TripInput.toTrip (i : TripInput) : Nat :=
  if i.blanked then max i.blank 1 + i.entry.filter.toNat
  else if i.count = i.entry.filter.toNat then 0
  else if 2 ≤ i.blank then i.blank + i.entry.filter.toNat
  else i.entry.filter.toNat - i.count

/-- A trip can be detected on an input: detection runs, it is ASSERTED and its episode flag clear (R87). -/
def TripInput.canTrip (i : TripInput) (n : NodeState) : Bool := i.detecting n && i.asserted && !i.episode

/-- The planned change of channel `c` is due: its tick has come (R70). -/
def State.changeDue (s : State) (c : Fin 6) : Bool :=
  match (s.gen.get c).nextChange with
  | some a => decide (s.node.state = .run) && decide (a ≤ s.timer.tick)
  | none => false

/-- The dead time of channel `c`'s run ends in this tick, and the run does not end with it (R70, R72;
log 25). -/
def State.deadEndDue (s : State) (c : Fin 6) : Bool :=
  decide (s.node.state = .run) && decide ((s.gen.get c).dead = some 0) && !s.changeDue c && !s.timer.wrapDue

/-- A trip is due on input `i`: this unblanked tick completes its filter (R87). -/
def State.tripDue (s : State) (i : Fin 4) : Bool :=
  (s.prot.inputs.get i).canTrip s.node.state && !(s.prot.inputs.get i).blanked
    && decide ((s.prot.inputs.get i).count = (s.prot.inputs.get i).entry.filter.toNat)

/-- The restore timer of group `g` expires in this tick (R95). -/
def State.restoreDue (s : State) (g : Fin 2) : Bool :=
  s.node.state.live && decide ((s.prot.groups.get g).state = .timedOff)
    && decide ((s.prot.groups.get g).timer = 0)

/-- The events due in the present tick, in no order of the spec's (log 5). -/
def State.dueEvents (s : State) : List Instr :=
  (if s.timer.running && s.timer.wrapDue then [Instr.periodBoundary] else [])
    ++ (channels.filter s.changeDue).map Instr.plannedChange
    ++ (channels.filter s.deadEndDue).map Instr.deadTimeEnd
    ++ (tripInputs.filter s.tripDue).map Instr.trip
    ++ (groups.filter s.restoreDue).map Instr.restoreTimerExpiry
    ++ (if s.load.state = .receiving ∧ s.load.gap = 0 then [Instr.gapTimerExpiry] else [])
    ++ (if s.load.state = .checking ∧ s.load.checkLeft = 0 then [Instr.checkCompletion] else [])

/-- The event taken first of several that are due in one tick, which a free value decides (log 5). -/
def firstTaken (draw : Nat) (e : Instr) (l : List Instr) : Instr :=
  (e :: l).getD (Config.dueChoice draw % (l.length + 1)) e

end Sys2Proof.Machine
end

