-- ==== Sys2Proof/Machine/Nodes.lean ====
section
/-! DEFINITION. The Node State Controller and the Period Timer's requests (spec/02): entry into SAFE, ARM,
ALIGN, TRIM, STOP, CLEAR, RESTART, with what the other blocks do at each (R62, R81, R101, R145). -/

namespace Sys2Proof.Machine

/-- An owning block's answer to a request: the state after its immediate effects, the status and the reply
data (R150, R153). -/
structure Answer where
  st : State
  status : Status
  data : List Byte

/-- A refusal or an answer that changes nothing. -/
def answer (s : State) (status : Status) (data : List Byte := []) : Answer := ⟨s, status, data⟩

/-- An input whose detection has stopped or begins (R85). -/
def TripInput.atRest (i : TripInput) : TripInput :=
  { i with count := 0, blank := 0, blanked := false, episode := false }

/-- A group at the end of ARMED or RUN: CYCLE_OFF and TIMED_OFF become ENABLED, the restore timer 0, LATCHED
stays (R100). -/
def ProtGroup.leaveLive (g : ProtGroup) : ProtGroup :=
  { g with state := if g.state = .latched then .latched else .enabled, timer := 0 }

/-- A group as CLEAR and RESTART leave it: ENABLED, timer and counts 0 (R101). -/
def ProtGroup.clear (g : ProtGroup) : ProtGroup := { g with state := .enabled, timer := 0, esc := 0, window := 0 }

/-- The Protection Unit when the node leaves ARMED or RUN for SAFE (R100). -/
def Protection.leaveLive (p : Protection) : Protection :=
  { inputs := p.inputs.map TripInput.atRest, groups := p.groups.map ProtGroup.leaveLive }

/-- The Protection Unit after CLEAR or RESTART (R101). -/
def Protection.clear (p : Protection) : Protection :=
  { inputs := p.inputs.map TripInput.atRest, groups := p.groups.map ProtGroup.clear }

/-- Entry into SAFE with a cause, taken in ARMED or RUN and without effect elsewhere (R33, R37). `rec` is
the cause of the fault record it appends, which names `channel` (R33, R56); STOP appends none. -/
def State.enterSafe (s : State) (cause : SafeCause) (rec : Option FaultCause) (channel : Option (Fin 6)) :
    State :=
  if s.node.state.live then
    let s1 := match rec with
      | some r => s.record r none none channel
      | none => s
    let s2 := s1.flush.cancelCommit.quietGates
    { s2 with
      node := { s.node with state := .safe, cause := cause, start := none }
      timer := { s.timer with trim := none }
      prot := s.prot.leaveLive }
  else s

/-- A node stopped in CONFIG: timer STOPPED at tick 0, no trim, no start period, no cause, loss count 0
(R22, R38, R39). -/
def State.toConfig (s : State) : State :=
  { s with
    node := { state := .config, cause := .none, start := none, loss := 0 }
    timer := { s.timer with tick := 0, trim := none, running := false, wrapDue := false }
    prot := s.prot.clear
    slots := { s.slots with walker := .idle } }

/-! ## ARM (R27, R28) -/

/-- A channel's queue state when ARM is accepted (R60). -/
def ChannelQueue.arm (q : ChannelQueue) (m : Memory) (c : Fin 6) : ChannelQueue :=
  { q with lastOn := channelMin m c, lastPhase := channelPhase m c, hold := 0, holdOff := false }

/-- The Protection Unit when ARM is accepted (R85). -/
def Protection.arm (p : Protection) : Protection :=
  { inputs := p.inputs.map TripInput.atRest
    groups := p.groups.map fun g => { g with esc := 0, window := 0 } }

/-- What an accepted ARM does (R28, R60, R81, R85). -/
def State.arm (s : State) (n0 : Word) (tick : Nat) (start : Word) : State :=
  let s1 := s.quietGates.blankEchoes
  { s1 with
    timer := { s.timer with tick := tick, len := s.activeP, period := n0, running := true, wrapDue := false }
    node := { s.node with state := .armed, start := some start, loss := 0 }
    queue := s.queue.mapIdx fun c q => q.arm s.bank.activeImage c
    prot := s.prot.arm }

/-- ARM(n0, t0, s) (R27). The indications of a refusal are STATE 01H, EMPTY 02H, SUPPLY 03H (11.3). -/
def ownArm (args : List Byte) (s : State) : Answer :=
  let n0 := wordAt args 0
  let tick := (wordAt args 2).toNat + s.mgmt.comp.toNat
  let start := wordAt args 4
  if s.node.state ≠ .config then answer s .refusedState [0x01]
  else if s.bank.cond = .empty then answer s .refusedState [0x02]
  else if within n0 start 255 = false then answer s .invalid
  else if s.activeP ≤ tick then answer s .invalid
  else if s.pins.drvOk = false then answer s .refusedState [0x03]
  else answer (s.arm n0 tick start) .done

/-! ## ALIGN (R31) -/

/-- ALIGN(n, t) (R31). -/
def ownAlign (args : List Byte) (s : State) : Answer :=
  let n := wordAt args 0
  let t := (wordAt args 2).toNat
  if s.node.state ≠ .armed then answer s .refusedState
  else if s.bank.commit.isSome then answer s .refusedBusy
  else if s.activeP ≤ t then answer s .invalid
  else if within n (s.node.start.getD n) 255 = false then answer s .invalid
  else
    answer
      { s.flush with
        timer := { s.timer with tick := t, len := s.activeP, period := n, trim := none, wrapDue := false } }
      .done

/-! ## TRIM (R25) -/

/-- TRIM(delta); the data byte is the replaced indication (R25, R174). -/
def ownTrim (args : List Byte) (s : State) : Answer :=
  let delta := (wordAt args 0).toInt
  if s.node.state.live = false then answer s .refusedState
  else if s.activeP / 8 < delta.natAbs then answer s .invalid
  else
    answer { s with timer := { s.timer with trim := some delta } } .done
      [if s.timer.trim.isSome then 0x01 else 0x00]

/-! ## STOP, CLEAR, RESTART (R32, R38, R39) -/

/-- STOP (R32). -/
def ownStop (s : State) : Answer :=
  if s.node.state.live then answer (s.enterSafe .stop none none) .done
  else if s.node.state = .safe then answer s .done
  else answer s .refusedState

/-- CLEAR (R38, R59, R101, R145). -/
def ownClear (s : State) : Answer :=
  if s.node.state = .safe then answer s.toConfig.flush .done else answer s .refusedState

/-- The shadow state when a load job ends without a check: BROKEN with a block written, else what it was
(R168, R172, R173). -/
def LoadJob.shadowAfter (l : LoadJob) : ShadowState := if 1 ≤ l.written then .broken else l.prior

/-- Ends the job of the Load Engine at RESTART (R173). -/
def State.endJobForRestart (s : State) : State :=
  match s.load.state with
  | .idle => s
  | .receiving =>
    { s with
      bank := { s.bank with shadow := s.load.shadowAfter }
      load := { s.load with state := .idle, gap := 0 } }
  | .checking =>
    { s with
      bank := { s.bank with shadow := .broken }
      load := { s.load with state := .idle, checkSeq := none, checkLeft := 0 } }

/-- What RESTART does, its reply prepared (R39): a pending commit is cancelled, a job ended, the queues
emptied and their values set to 0, the groups enabled, the counters 0, the gates quiet, the cache empty. -/
def State.restart (s : State) : State :=
  let s1 := s.cancelCommit.endJobForRestart.toConfig.flush.quietGates.blankEchoes
  { s1 with
    timer := { s1.timer with len := Config.resetLen, period := 0 }
    queue := .all .powerOn
    counters := .zero
    mgmt := { s1.mgmt with cache := [] } }

/-- RESTART (R39). -/
def ownRestart (s : State) : Answer := answer s.restart .done

end Sys2Proof.Machine
end

