-- ==== Sys2Proof/Machine/Banks.lean ====
section
/-! DEFINITION. The Bank Store's requests (spec/01): validation, COMMIT, COPY ACTIVE, the swap at a boundary,
and entry access (spec/09 R162 to R164) with the trip input, group and NODE entries (R82, R83, R29). -/

namespace Sys2Proof.Machine

/-! ## Validation (R10 to R13) -/

/-- The first check of a list that fails (R10). -/
def firstFailure : List (Bool × Reason) → Option Reason
  | [] => none
  | (fails, r) :: t => if fails then some r else firstFailure t

/-- The header checks in order (R11). A one-byte hold limit is never above 255. -/
def headerChecks (m : Memory) : List (Bool × Reason) :=
  [(decide (imageP m < 500) || decide (60000 < imageP m), .periodRange),
   (decide (255 < imageHoldLimit m), .holdRange),
   (decide (imageLossTimeout m = 0) || decide (255 < imageLossTimeout m), .lossRange),
   ((m.readAll 6 10).any fun b => decide (b ≠ 0), .reservedNonzero)]

/-- The edge indices below a channel's fixed edge count (R12). -/
def usedEdges (m : Memory) (c : Fin 6) : List Nat := List.range (min 4 (channelEdgeCount m c))

/-- The edge indices at or beyond the count (R12). -/
def spareEdges (m : Memory) (c : Fin 6) : List Nat :=
  (List.range 4).filter fun k => decide (channelEdgeCount m c ≤ k)

/-- The checks of channel record `c` in order, against the same image's P (R12). -/
def channelChecks (m : Memory) (c : Fin 6) : List (Bool × Reason) :=
  let p := imageP m
  [((Pattern.ofCode (channelByte m c 0)).isNone, .patternUnknown),
   (decide (1 < (channelByte m c 1).toNat), .groupRange),
   (decide (1000 < channelDead m c), .deadTimeRange),
   (decide ((channelMax m c).toNat < (channelMin m c).toNat) || decide (p < (channelMax m c).toNat),
     .onTimeLimits),
   (decide (p ≤ (channelPhase m c).toNat), .phaseRange),
   (decide (4 < channelEdgeCount m c)
      || (spareEdges m c).any fun k => decide (edgeTime m c k ≠ 0) || decide (edgeCode m c k ≠ 0), .edgeCount),
   ((usedEdges m c).any fun k => decide (k ≠ 0) && decide (edgeTime m c k ≤ edgeTime m c (k - 1)), .edgeOrder),
   ((usedEdges m c).any fun k => decide (p ≤ edgeTime m c k), .edgeRange),
   ((usedEdges m c).any fun k => (Level.ofCode (edgeCode m c k)).isNone, .edgeState)]

/-- A used CONSUME entry (R4). -/
def SlotEntry.isConsume (e : SlotEntry) : Bool := decide (e.id ≠ 0) && decide (e.kind = slotKindConsume)

/-- A used PRODUCE entry (R4). -/
def SlotEntry.isProduce (e : SlotEntry) : Bool := decide (e.id ≠ 0) && decide (e.kind = slotKindProduce)

/-- The selector is ECHO. -/
def SlotEntry.isEcho (e : SlotEntry) : Bool := decide (Content.ofCode e.selector = some .echo)

/-- Channel `n` lies in the entry's range first .. first + count − 1. -/
def SlotEntry.covers (e : SlotEntry) (n : Nat) : Bool := decide (e.first ≤ n) && decide (n < e.first + e.count)

/-- Two entries share a channel. -/
def SlotEntry.overlaps (a b : SlotEntry) : Bool :=
  decide (a.first < b.first + b.count) && decide (b.first < a.first + a.count)

/-- The channel range of an entry is no range of channels 0..5 (R4). -/
def SlotEntry.badRange (e : SlotEntry) : Bool :=
  decide (5 < e.first) || decide (e.count = 0) || decide (6 < e.count) || decide (6 < e.first + e.count)

/-- The checks of slot-map entry `k` in order (R13). -/
def slotChecks (m : Memory) (k : Nat) : List (Bool × Reason) :=
  let e := slotEntry m k
  let lower := (List.range k).map (slotEntry m)
  if e.id = 0 then
    [(decide (e.kind ≠ 0) || decide (e.selector ≠ 0) || decide (e.first ≠ 0) || decide (e.count ≠ 0),
      .reservedNonzero)]
  else
    [(!e.isConsume && !e.isProduce, .slotKind),
     (lower.any fun x => decide (x.id = e.id), .slotDuplicate),
     ((e.isConsume || e.isProduce && e.isEcho) && e.badRange
        || e.isProduce && !e.isEcho && (decide (e.first ≠ 0) || decide (e.count ≠ 0)), .slotRange),
     (e.isConsume && lower.any fun x => x.isConsume && x.overlaps e, .slotOverlap),
     (e.isConsume && decide (e.selector ≠ 0) || e.isProduce && (Content.ofCode e.selector).isNone,
      .selectorUnknown)]

/-- Channel `c` is setpoint-driven and lies in no CONSUME entry's range (R13). -/
def unbound (m : Memory) (c : Fin 6) : Bool :=
  (channelPattern m c).driven && !((slotEntries m).any fun e => e.isConsume && e.covers c.val)

/-- A failure with its index. -/
def failureAt (checks : List (Bool × Reason)) (index : Nat) : Option (Reason × Byte) :=
  (firstFailure checks).map fun r => (r, BitVec.ofNat 8 index)

/-- The first failure of an image, header, channel records, slot map, channel binding in that order (R10). -/
def validate (m : Memory) : Option (Reason × Byte) :=
  ((failureAt (headerChecks m) 0) :: (channels.map fun c => failureAt (channelChecks m c) c.val)
      ++ ((List.range 16).map fun k => failureAt (slotChecks m k) k)
      ++ (channels.map fun c => failureAt [(unbound m c, .unboundChannel)] c.val)).findSome? id

/-! ## COMMIT and COPY ACTIVE (R14, R15, R20) -/

/-- The reply data of CHECK_FAILED (R153). -/
def failureData (r : Reason) (index : Byte) : List Byte := [r.code, index]

/-- COMMIT in CONFIG (R14). -/
def commitConfig (s : State) : Answer :=
  match s.bank.shadow with
  | .editable =>
    match validate s.bank.shadowImage with
    | some (r, i) => answer s .checkFailed (failureData r i)
    | none => answer { s with bank := s.bank.swap } .done
  | .broken => answer s .checkFailed (failureData .loadIncomplete 0xFF)
  | .loading => answer s .refusedBusy
  | .checking => answer s .refusedBusy
  | .frozen => answer s .refusedBusy

/-- The swap period a COMMIT carries, when it carries one (R15, R154). -/
def swapArg (args : List Byte) : Option Word := if args.length = 2 then some (wordAt args 0) else none

/-- COMMIT in ARMED or RUN (R15). -/
def commitLive (seq : Byte) (args : List Byte) (s : State) : Answer :=
  if s.bank.commit.isSome then answer s .refusedBusy
  else if s.bank.shadow = .loading ∨ s.bank.shadow = .checking then answer s .refusedBusy
  else if s.bank.shadow = .broken then answer s .checkFailed (failureData .loadIncomplete 0xFF)
  else if (match swapArg args with
      | some p => !within s.timer.period p 255
      | none => false) then answer s .late
  else
    match validate s.bank.shadowImage with
    | some (r, i) => answer s .checkFailed (failureData r i)
    | none =>
      answer
        { s with
          bank := { s.bank with
            shadow := .frozen
            commit := some ⟨(swapArg args).getD (s.timer.period + 1), seq⟩ } }
        .pending

/-- COMMIT (R14, R15). -/
def ownCommit (seq : Byte) (args : List Byte) (s : State) : Answer :=
  match s.node.state with
  | .config => commitConfig s
  | .armed => commitLive seq args s
  | .run => commitLive seq args s
  | .safe => answer s .refusedState
  | .unaddressed => answer s .refusedState

/-- COPY ACTIVE (R20). -/
def ownCopyActive (s : State) : Answer :=
  match s.bank.shadow with
  | .editable => answer { s with bank := { s.bank.setShadow s.bank.activeImage with shadow := .editable } } .done
  | .broken => answer { s with bank := { s.bank.setShadow s.bank.activeImage with shadow := .editable } } .done
  | .loading => answer s .refusedBusy
  | .checking => answer s .refusedBusy
  | .frozen => answer s .refusedBusy

/-- The swap of a pending commit whose swap period begins; its cache record becomes DONE (R16). -/
def State.swapAt (s : State) (period : Word) : State :=
  match s.bank.commit with
  | none => s
  | some p =>
    if p.period = period then
      { s with
        bank := { s.bank.swap with commit := none }
        mgmt := s.mgmt.complete p.seq .commit .done [] }
    else s

/-! ## Entry access (R162 to R164) -/

/-- The bytes of a bank table's entry, by role (R8, R163). -/
def readBank (s : State) (t : Table) (index : Nat) (role : Byte) : Answer :=
  if role = roleActive then answer s .done (s.bank.activeImage.readAll (t.base index) t.size)
  else if role = roleShadow then answer s .done (s.bank.shadowImage.readAll (t.base index) t.size)
  else answer s .invalid

/-- Trip input `n` of the four. -/
def inputOf (n : Nat) : Option (Fin 4) := if h : n < 4 then some ⟨n, h⟩ else none

/-- Group `n` of the two. -/
def groupNumber (n : Nat) : Option (Fin 2) := if h : n < 2 then some ⟨n, h⟩ else none

/-- READ ENTRY(table, index, role) (R163). -/
def ownReadEntry (args : List Byte) (s : State) : Answer :=
  let index := (byteAt args 1).toNat
  match argTable args with
  | none => answer s .invalid
  | some t =>
    if t.entries ≤ index then answer s .invalid
    else
      match t with
      | .header => readBank s .header index (byteAt args 2)
      | .channel => readBank s .channel index (byteAt args 2)
      | .slot => readBank s .slot index (byteAt args 2)
      | .tripInput =>
        match inputOf index with
        | some i => answer s .done (s.prot.inputs.get i).entry.encode
        | none => answer s .invalid
      | .group =>
        match groupNumber index with
        | some g => answer s .done (s.prot.groups.get g).entry.encode
        | none => answer s .invalid
      | .node => answer s .done (wordBytes s.mgmt.comp)

/-- A write to a bank table's entry (R9, R164 tests 2 to 5). -/
def writeBank (s : State) (t : Table) (index : Nat) (role : Byte) (entry : List Byte) : Answer :=
  if role = roleActive then answer s .invalid
  else if role ≠ roleShadow then answer s .invalid
  else
    match s.bank.shadow with
    | .editable =>
      answer { s with bank := s.bank.setShadow (s.bank.shadowImage.writeAll (t.base index) entry) } .done
    | .broken =>
      answer { s with bank := s.bank.setShadow (s.bank.shadowImage.writeAll (t.base index) entry) } .done
    | .loading => answer s .refusedBusy
    | .checking => answer s .refusedBusy
    | .frozen => answer s .refusedBusy

/-- A write to a TRIP INPUT entry (R82). -/
def writeTripInput (s : State) (index : Nat) (entry : List Byte) : Answer :=
  if s.node.state ≠ .config then answer s .refusedState
  else
    match inputOf index, TripEntry.decode entry with
    | some i, some e =>
      answer
        { s with prot := { s.prot with inputs := s.prot.inputs.modify i fun x => { x with entry := e } } } .done
    | _, _ => answer s .invalid

/-- A write to a GROUP entry (R83). -/
def writeGroup (s : State) (index : Nat) (entry : List Byte) : Answer :=
  if s.node.state ≠ .config then answer s .refusedState
  else
    match groupNumber index, GroupEntry.decode entry with
    | some g, some e =>
      answer
        { s with prot := { s.prot with groups := s.prot.groups.modify g fun x => { x with entry := e } } } .done
    | _, _ => answer s .invalid

/-- A write to the NODE entry (R29, R164). -/
def writeNode (s : State) (entry : List Byte) : Answer :=
  if s.node.state ≠ .config then answer s .refusedState
  else if 1023 < (wordAt entry 0).toNat then answer s .invalid
  else answer { s with mgmt := { s.mgmt with comp := wordAt entry 0 } } .done

/-- WRITE ENTRY(table, index, role, entry) (R164). -/
def ownWriteEntry (args : List Byte) (s : State) : Answer :=
  let index := (byteAt args 1).toNat
  let entry := args.drop 3
  match argTable args with
  | none => answer s .invalid
  | some t =>
    if t.entries ≤ index then answer s .invalid
    else
      match t with
      | .header => writeBank s .header index (byteAt args 2) entry
      | .channel => writeBank s .channel index (byteAt args 2) entry
      | .slot => writeBank s .slot index (byteAt args 2) entry
      | .tripInput => writeTripInput s index entry
      | .group => writeGroup s index entry
      | .node => writeNode s entry

/-- IDENTIFY (R161). -/
def ownIdentify (s : State) : Answer :=
  answer s .done
    (identityEntry s.node.state ++ [s.roll.address, s.node.cause.code] ++ wordBytes s.timer.period
      ++ wordBytes (if s.bank.cond = .empty then 0 else imageTag s.bank.activeImage) ++ [s.bank.shadow.code])

end Sys2Proof.Machine
end

