-- ==== Sys2Proof/Machine/Queues.lean ====
section
/-! DEFINITION. The Setpoint Queue Unit (spec/03): classification of an arrival, selection at a boundary. -/

namespace Sys2Proof.Machine

/-! ## Arrival at frame end (R44 to R49) -/

/-- Inserts a record after every record of a nearer target (R49). -/
def insertRecord (now : Word) (r : Setpoint) : List Setpoint → List Setpoint
  | [] => [r]
  | x :: t => if distance now r.target < distance now x.target then r :: x :: t else x :: insertRecord now r t

/-- Replaces the queued record of the same target (R47). -/
def replaceRecord (r : Setpoint) (l : List Setpoint) : List Setpoint :=
  l.map fun x => if x.target = r.target then r else x

/-- What becomes of an arriving record (R45). -/
inductive Fate where
  | late
  | far
  | replaced
  | overrun
  | inserted
deriving DecidableEq, Repr

/-- The tests of R46 to R48 in order (R45). -/
def classify (now : Word) (l : List Setpoint) (r : Setpoint) : Fate :=
  if within now r.target 32767 = false then .late
  else if 16 ≤ distance now r.target then .far
  else if l.any fun x => decide (x.target = r.target) then .replaced
  else if 4 ≤ l.length then .overrun
  else .inserted

/-- A queue after a record's fate (R45). -/
def Fate.apply (f : Fate) (now : Word) (r : Setpoint) (l : List Setpoint) : List Setpoint :=
  match f with
  | .late => l
  | .far => l
  | .replaced => replaceRecord r l
  | .overrun => l
  | .inserted => insertRecord now r l

/-- The counter a fate increments (R45). -/
def Fate.counter : Fate → Option CounterId
  | .late => some .spLate
  | .far => some .spFar
  | .replaced => some .spReplaced
  | .overrun => some .spOverrun
  | .inserted => none

/-- Takes one record of an arrival (R45). -/
def State.takeRecord (s : State) (r : Setpoint) : State :=
  let f := classify s.timer.period (s.queue.get r.chan).records r
  let s1 :=
    { s with
      queue := s.queue.modify r.chan fun q => { q with records := f.apply s.timer.period r q.records } }
  match f.counter with
  | some id => s1.count id
  | none => s1

/-- Takes an arrival: outside ARMED and RUN every record is discarded without a count (R45). -/
def State.takeArrival (s : State) (l : List Setpoint) : State :=
  if s.node.state.live then l.foldl State.takeRecord s else s

/-! ## Selection at a boundary (R51 to R57) -/

/-- The record for the period that begins, when the head is for it (R51, R52). -/
def ChannelQueue.due (q : ChannelQueue) (period : Word) : Option Setpoint :=
  match q.records with
  | [] => none
  | r :: _ => if r.target = period then some r else none

/-- The queue without the record for the period that begins (R51, R52). -/
def ChannelQueue.rest (q : ChannelQueue) (period : Word) : List Setpoint :=
  match q.due period with
  | some _ => q.records.tail
  | none => q.records

/-- A channel at a boundary in ARMED (R51). -/
def ChannelQueue.boundaryArmed (q : ChannelQueue) (m : Memory) (c : Fin 6) (period : Word) : ChannelQueue :=
  match q.due period with
  | none => q
  | some r =>
    if (channelPattern m c).driven then
      { q with records := q.rest period, lastOn := r.onTime, lastPhase := r.phase.getD (channelPhase m c) }
    else { q with records := q.rest period }

/-- A channel's selection: what it holds after, what it hands over, whether it held, whether it raises
HOLD_LIMIT (R52). -/
structure Selection where
  q : ChannelQueue
  handed : Handed
  held : Bool
  raises : Bool
deriving DecidableEq, Repr

/-- A channel's selection at a boundary in RUN, from the bank of the new period (R52 to R57). -/
def ChannelQueue.select (q : ChannelQueue) (m : Memory) (c : Fin 6) (period : Word) : Selection :=
  let limit := imageHoldLimit m
  if (channelPattern m c).driven then
    match q.due period with
    | some r =>
      let phase := r.phase.getD (channelPhase m c)
      { q := { records := q.rest period, lastOn := r.onTime, lastPhase := phase, hold := 0, holdOff := false }
        handed := .use r.onTime phase, held := false, raises := false }
    | none =>
      if q.holdOff then { q := q, handed := .holdOff, held := false, raises := false }
      else if q.hold < limit then
        { q := { q with hold := q.hold + 1 }, handed := .use q.lastOn q.lastPhase, held := true, raises := false }
      else if channelHoldSafe m c then
        { q := { q with hold := limit }, handed := .holdOff, held := false, raises := true }
      else { q := { q with hold := limit, holdOff := true }, handed := .holdOff, held := false, raises := false }
  else
    { q := { q with records := q.rest period, hold := 0, holdOff := false }
      handed := .nothing, held := false, raises := false }

/-- The six selections of a boundary in RUN (R52). -/
def State.selections (s : State) : Six Selection :=
  s.queue.mapIdx fun c q => q.select s.bank.activeImage c s.timer.period

/-- How many channels held (R54). -/
def heldCount (l : Six Selection) : Nat := (l.toList.filter Selection.held).length

/-- The lowest-numbered channel that raises HOLD_LIMIT (R56). -/
def raisingChannel (l : Six Selection) : Option (Fin 6) := channels.find? fun c => (l.get c).raises

end Sys2Proof.Machine
end

