-- ==== Sys2Proof/Machine/Trips.lean ====
section
/-! DEFINITION. The Protection Unit's group state machine (spec/05): trips, escalation, restores, the escalation
window and TRIP ACK. -/

namespace Sys2Proof.Machine

/-- A change of group `g`'s own values. -/
def State.modifyGroup (s : State) (g : Fin 2) (f : ProtGroup → ProtGroup) : State :=
  { s with prot := { s.prot with groups := s.prot.groups.modify g f } }

/-- The state an action moves a group to (R90 to R92). -/
def TripAction.target : TripAction → GroupState
  | .cycle => .cycleOff
  | .timed => .timedOff
  | .latch => .latched

/-- The strength order of the group states (5.4). -/
def GroupState.strength : GroupState → Nat
  | .enabled => 0
  | .cycleOff => 1
  | .timedOff => 2
  | .latched => 3

/-- The restore timer after a trip (R90 to R92): a TIMED trip that leaves the group TIMED_OFF sets it to the
delay, a LATCH trip leaves it 0. -/
def ProtGroup.timerAfter (g : ProtGroup) (a : TripAction) (delay : Nat) : Nat :=
  match a with
  | .cycle => g.timer
  | .timed => if g.state = .latched then g.timer else delay
  | .latch => if g.state = .latched then g.timer else 0

/-- The group a trip of action `a` leaves: at least the action's own state, the escalation count one more
when it leaves ENABLED (R90 to R92, R97). -/
def ProtGroup.trip (g : ProtGroup) (a : TripAction) (delay : Nat) : ProtGroup :=
  { g with
    state := if g.state.strength < a.target.strength then a.target else g.state
    timer := g.timerAfter a delay
    esc := if g.state = .enabled then min 255 (g.esc + 1) else g.esc }

/-- The trip that moved a group out of ENABLED escalates it: E is not 0, the new count is E or more, and the
change was into CYCLE_OFF or TIMED_OFF (R97). -/
def escalates (old new : ProtGroup) : Bool :=
  decide (old.state = .enabled) && decide (new.state ≠ .latched) && decide (old.entry.e ≠ 0)
    && decide (old.entry.e.toNat ≤ new.esc)

/-- The counter of CYCLE trips of a group (R104). -/
def cycleCounter (g : Fin 2) : CounterId := if g = 0 then .cycleTripsG0 else .cycleTripsG1

/-- The count or the record a trip makes in every group state (R90 to R92, R103). -/
def State.noteTrip (s : State) (i : Fin 4) (g : Fin 2) (a : TripAction) : State :=
  match a with
  | .cycle => s.count (cycleCounter g)
  | .timed => s.record .tripTimed (some g) (some i) none
  | .latch => s.record .tripLatch (some g) (some i) none

/-- A detected trip of input `i` acts on group `g` (R90 to R92), and may escalate it after its own effects
(R97); the pins follow in the same tick (R75). -/
def State.tripGroup (s : State) (i : Fin 4) (g : Fin 2) (a : TripAction) (delay : Nat) : State :=
  let old := s.prot.groups.get g
  let s1 := (s.noteTrip i g a).modifyGroup g fun x => x.trip a delay
  let s2 :=
    if escalates old (old.trip a delay) then
      (s1.record .escalated (some g) (some i) none).modifyGroup g fun x => { x with state := .latched, timer := 0 }
    else s1
  s2.drive

/-- A trip is detected on input `i`: its episode flag is set and its group acts on it (R87). -/
def State.detectTrip (s : State) (i : Fin 4) : State :=
  let x := s.prot.inputs.get i
  let s1 :=
    { s with
      prot := { s.prot with
        inputs := s.prot.inputs.modify i fun y => { y with count := y.entry.filter.toNat, episode := true } } }
  match x.entry.group with
  | some g => s1.tripGroup i g x.entry.action x.entry.delay.toNat
  | none => s1

/-- Group `g` becomes ENABLED between boundaries: in RUN its channels wait for their next planned change
(R76). -/
def State.enableGroup (s : State) (g : Fin 2) : State :=
  ((s.modifyGroup g fun x => { x with state := .enabled }).holdUntilEdge g).drive

/-- The expiry of group `g`'s restore timer (R95). -/
def State.restoreExpiry (s : State) (g : Fin 2) : State :=
  if s.prot.anyAsserted g .timed then
    s.modifyGroup g fun x => { x with timer := s.prot.longestDelay g }
  else s.enableGroup g

/-- A group at a boundary in ARMED or RUN: CYCLE restore (R94) and the escalation window (R98). -/
def ProtGroup.boundary (x : ProtGroup) (asserted : Bool) : ProtGroup :=
  { x with
    state := if x.state = .cycleOff ∧ asserted = false then .enabled else x.state
    window := if x.entry.w.toNat ≤ x.window + 1 then 0 else x.window + 1
    esc := if x.entry.w.toNat ≤ x.window + 1 then 0 else x.esc }

/-- The Protection Unit at a boundary in ARMED or RUN (R94, R98). -/
def Protection.boundary (p : Protection) : Protection :=
  { p with groups := p.groups.mapIdx fun g x => x.boundary (p.anyAsserted g .cycle) }

/-- TRIP ACK(group) (R99). -/
def ownTripAck (args : List Byte) (s : State) : Answer :=
  if s.node.state = .config then answer s .refusedState
  else
    match (if byteAt args 0 = 0 then some (0 : Fin 2) else if byteAt args 0 = 1 then some 1 else none) with
    | none => answer s .invalid
    | some g =>
      if (s.prot.groups.get g).state = .latched then
        if s.prot.anyAsserted g .latch then answer s .active
        else answer (s.enableGroup g) .done
      else answer s .done

end Sys2Proof.Machine
end

