-- ==== Sys2Proof/Machine/Boundary.lean ====
section
/-! DEFINITION. The period boundary (spec/02 R23) with every block's boundary work, in the order of log 15. -/

namespace Sys2Proof.Machine

/-- L of a period that begins: P plus a pending trim, at least 500 with a trim (R23). -/
def nextLen (p : Nat) (trim : Option Int) : Nat :=
  match trim with
  | none => p
  | some d => max Config.minPeriod (p + d).toNat

/-- The timer at the boundary: tick 0, the next period number, L from the bank in force, the trim used
(R23). -/
def State.wrapTimer (s : State) : State :=
  { s with
    timer :=
      { tick := 0, len := nextLen s.activeP s.timer.trim, period := s.timer.period + 1, trim := none,
        running := true, wrapDue := false } }

/-- The old period's plans at their last tick (R64; log 4). -/
def State.finishPlans (s : State) : State :=
  if s.node.state = .run then
    { s with
      gen := s.gen.mapIdx fun c g => g.finish (channelDead s.bank.activeImage c) s.timer.len }
  else s

/-- The loss test: one more boundary without a good cycle frame, and SAFE when the count reaches the loss
timeout of the bank in force (R35). -/
def State.lossTest (s : State) : State :=
  let s1 := { s with node := { s.node with loss := s.node.loss + 1 } }
  if imageLossTimeout s.bank.activeImage ≤ s.node.loss + 1 then
    s1.enterSafe .linkLoss (some .linkLoss) none
  else s1

/-- The boundary into the start period (R30). -/
def State.startEntry (s : State) : State :=
  if s.node.state = .armed ∧ s.node.start = some s.timer.period then
    { s with node := { s.node with state := .run, start := none } }
  else s

/-- The Pattern Generator at a boundary in RUN: plans, echo values, clamps, pins (R64, R65, R71, R80). -/
def State.buildPlans (s : State) (sel : Six Selection) : State :=
  let m := s.bank.activeImage
  let L := s.timer.len
  let total := (channels.map fun c => clampsFor m c L (sel.get c).handed).sum
  State.drive
    (State.countN
      { s with
        gen := s.gen.mapIdx fun c g =>
          g.start (planFor m c L (sel.get c).handed) (echoFor m c L (sel.get c).handed) (channelDead m c) }
      .clamps total)

/-- The Setpoint Queue Unit and the Pattern Generator at a boundary in RUN (R52 to R58, R64). -/
def State.runBoundary (s : State) : State :=
  let sel := s.selections
  let s1 := State.countN { s with queue := sel.map Selection.q } .holds (heldCount sel)
  match raisingChannel sel with
  | some c => s1.enterSafe .holdLimit (some .holdLimit) (some c)
  | none => s1.buildPlans sel

/-- The Setpoint Queue Unit at a boundary in ARMED (R51). -/
def State.armedBoundary (s : State) : State :=
  { s with queue := s.queue.mapIdx fun c q => q.boundaryArmed s.bank.activeImage c s.timer.period }

/-- The work of the blocks that act by period, once the period number and L are set (R30, R94, R98). -/
def State.boundaryWork (s : State) : State :=
  let s1 := s.lossTest
  if s1.node.state.live then
    let s2 := s1.startEntry
    let s3 := { s2 with prot := s2.prot.boundary }
    if s3.node.state = .run then s3.runBoundary else s3.armedBoundary
  else s1

/-- The period boundary taken in the present tick (R23): a swap first (R16), then the timer, then the blocks
that act in ARMED and RUN. -/
def State.boundary (s : State) : State :=
  let s1 := (s.finishPlans.swapAt (s.timer.period + 1)).wrapTimer
  if s1.node.state.live then s1.boundaryWork else s1

end Sys2Proof.Machine
end

