-- ==== Sys2Proof/Machine/Loads.lean ====
section
/-! DEFINITION. The Load Engine (spec/10): LOAD BEGIN, LOAD DATA, LOAD END, LOAD CANCEL, the gap timer's
expiry and the end of the check. -/

namespace Sys2Proof.Machine

/-- LOAD BEGIN(first, count, checksum) (R166). -/
def ownLoadBegin (args : List Byte) (s : State) : Answer :=
  let first := (byteAt args 0).toNat
  let count := (byteAt args 1).toNat
  if s.load.state ≠ .idle then answer s .refusedBusy
  else if s.bank.shadow = .frozen then answer s .refusedBusy
  else if 6 < first ∨ count = 0 ∨ 7 < count ∨ 7 < first + count then answer s .invalid
  else
    answer
      { s with
        load :=
          { state := .receiving, first := first, count := count, next := first, checksum := wordAt args 2,
            written := 0, prior := s.bank.shadow, gap := Config.gapTicks, checkSeq := none, checkLeft := 0 }
        bank := { s.bank with shadow := .loading } }
      .done

/-- Ends a RECEIVING job without a check: IDLE, gap timer stopped, shadow BROKEN with a block written and the
prior state else (R168, R169, R172). -/
def State.endJob (s : State) : State :=
  { s with
    load := { s.load with state := .idle, gap := 0 }
    bank := { s.bank with shadow := s.load.shadowAfter } }

/-- LOAD DATA(index, block) (R167, R168). -/
def ownLoadData (args : List Byte) (s : State) : Answer :=
  let index := (byteAt args 0).toNat
  match s.load.state with
  | .idle => answer s .refusedState
  | .checking => answer s .refusedBusy
  | .receiving =>
    if index = s.load.next ∧ s.load.next < s.load.first + s.load.count then
      answer
        { s with
          bank := s.bank.setShadow (s.bank.shadowImage.writeAll (32 * index) (args.drop 1))
          load := { s.load with next := s.load.next + 1, written := s.load.written + 1, gap := Config.gapTicks } }
        .done [BitVec.ofNat 8 (s.load.next + 1)]
    else if index + 1 = s.load.next ∧ s.load.first < s.load.next then
      answer s .done [BitVec.ofNat 8 s.load.next]
    else answer (s.endJob.count .loadAborts) .outOfOrder

/-- LOAD END (R170). -/
def ownLoadEnd (seq : Byte) (s : State) : Answer :=
  match s.load.state with
  | .idle => answer s .refusedState
  | .checking => answer s .refusedBusy
  | .receiving =>
    if s.load.next < s.load.first + s.load.count then answer s .incomplete
    else
      answer
        { s with
          load := { s.load with state := .checking, gap := 0, checkSeq := some seq, checkLeft := Config.checkTicks }
          bank := { s.bank with shadow := .checking } }
        .pending

/-- LOAD CANCEL (R172). -/
def ownLoadCancel (s : State) : Answer :=
  match s.load.state with
  | .idle => answer s .done
  | .receiving => answer s.endJob .done
  | .checking => answer s .refusedBusy

/-- The gap timer's expiry in RECEIVING (R169). -/
def State.gapExpiry (s : State) : State := s.endJob.count .loadAborts

/-- The checksum over the job's blocks equals the expected one (R171). -/
def State.checkMatches (s : State) : Bool :=
  decide (crc16 (s.bank.shadowImage.readAll (32 * s.load.first) (32 * s.load.count)) = s.load.checksum)

/-- The end of the check (R171): shadow EDITABLE on a match, else BROKEN and counted; the cache record of the
check sequence is completed (R157). -/
def State.completeCheck (s : State) : State :=
  let s1 := { s with load := { s.load with state := .idle, gap := 0, checkSeq := none, checkLeft := 0 } }
  let done (st : Status) (data : List Byte) : Management :=
    match s.load.checkSeq with
    | some seq => s.mgmt.complete seq .loadEnd st data
    | none => s.mgmt
  if s.checkMatches then
    { s1 with
      bank := { s.bank with shadow := .editable }
      mgmt := done .done [] }
  else
    State.count
      { s1 with
        bank := { s.bank with shadow := .broken }
        mgmt := done .checkFailed [Reason.checksumMismatch.code, 0xFF] }
      .loadAborts

end Sys2Proof.Machine
end

