-- ==== Sys2Proof/Machine/Records.lean ====
section
/-! DEFINITION. The requests of the Fault Log and the Counters (spec/06). -/

namespace Sys2Proof.Machine

/-- FAULT READ (R109): count, dropped count, and the oldest record when there is one. -/
def ownFaultRead (s : State) : Answer :=
  answer s .done
    ([s.log.countByte, BitVec.ofNat 8 s.log.dropped]
      ++ match s.log.records with
        | [] => []
        | r :: _ => r.encode)

/-- The log without its oldest record; emptied, its dropped count is 0 (R110). -/
def FaultLog.pop (l : FaultLog) : FaultLog :=
  { l with
    records := l.records.tail
    dropped := if l.records.length ≤ 1 then 0 else l.dropped }

/-- FAULT POP(k) (R110). -/
def ownFaultPop (args : List Byte) (s : State) : Answer :=
  match s.log.records with
  | [] => answer s .done [0]
  | r :: _ =>
    if r.number = wordAt args 0 then answer { s with log := s.log.pop } .done [s.log.pop.countByte]
    else answer s .invalid [s.log.countByte]

/-- COUNTERS READ: sixteen counters of two bytes (R113). -/
def ownCountersRead (s : State) : Answer :=
  answer s .done (s.counters.toList.flatMap fun n => wordBytes (BitVec.ofNat 16 n))

/-- COUNTERS CLEAR (R114). -/
def ownCountersClear (s : State) : Answer := answer { s with counters := .zero } .done

end Sys2Proof.Machine
end

