-- ==== Sys2Proof/Machine/Slots.lean ====
section
/-! DEFINITION. The Slot Parser (spec/08): the walk over the slots of a cycle frame, byte by byte. Each handler
answers the state and the byte that leaves. -/

namespace Sys2Proof.Machine

/-- A change of the Slot Parser's own values. -/
def State.withSlots (s : State) (f : SlotParser → SlotParser) : State := { s with slots := f s.slots }

/-- Sets the malformed mark of the frame in progress (R122). -/
def State.markMalformed (s : State) : State :=
  { s with relay := { s.relay with frame := { s.relay.frame with malformed := true } } }

/-- The parser finds the frame malformed and acts on nothing further in it (R135). -/
def State.stopSlots (s : State) : State := s.markMalformed.withSlots fun p => { p with walker := .stopped }

/-- The start of a frame handed to the parser: acted-on list cleared, no current slot, HEADER (R132; made when the kind
arrives: log 33). -/
def SlotParser.begin (p : SlotParser) : SlotParser :=
  { p with walker := .header, remaining := 0, cur := none, dataPos := 0, acted := [] }

/-- The used slot-map entry of the active bank with an id; an EMPTY bank has none (R6, R136). -/
def State.slotOf (s : State) (id : Byte) : Option SlotEntry :=
  if s.bank.cond = .empty ∨ id = 0 then none
  else (slotEntries s.bank.activeImage).find? fun e => decide (e.id = id)

/-- The treatment a bound slot gets in a node state (R136). -/
def SlotEntry.treatment (e : SlotEntry) (n : NodeState) : Treatment :=
  if e.kind = slotKindConsume then (if n.live then .consume e.first e.count else .untouched)
  else if e.kind = slotKindProduce then
    match Content.ofCode e.selector with
    | some k => .produce k e.first e.count []
    | none => .untouched
  else .untouched

/-- A slot begins: it is resolved and tested for repetition (R134, R136, R137). The entry found is kept for a repeat
too, which it does not govern. -/
def State.beginSlot (s : State) (id : Byte) : State :=
  let s1 := s.withSlots fun p =>
    { p with
      walker := .slotLength, remaining := p.remaining - 1, dataPos := 0
      cur := some ⟨id, 0, s.slotOf id, .untouched, []⟩ }
  if s.slots.acted.any fun x => decide (x = id) then s1.count .slotRepeat
  else
    match s.slotOf id with
    | none => s1
    | some e =>
      s1.withSlots fun p =>
        { p with acted := p.acted ++ [id], cur := some ⟨id, 0, some e, e.treatment s.node.state, []⟩ }

/-- The walker state after a slot (R134). -/
def afterSlot (remaining : Nat) : Walker := if remaining = 0 then .tail else .slotId

/-- The treatment after the length test, and whether it is a mismatch (R138, R141). A consume slot is tested
in ARMED and RUN alone. -/
def State.lengthTest (s : State) (t : Treatment) (len : Nat) : Treatment × Bool :=
  match t with
  | .untouched => (.untouched, false)
  | .consume f c =>
    if s.node.state.live then
      if len = 2 * c ∨ len = 2 * c + 2 then (.consume f c, false) else (.untouched, true)
    else (.untouched, false)
  | .produce k f c _ =>
    if len = k.size c then (.produce k f c (s.content k f c), false) else (.untouched, true)

/-- The slot length byte: overrun tests, then the length test of the treatment (R134, R135). -/
def State.slotLength (s : State) (len : Nat) (i bodyLen : Nat) : State :=
  if Config.maxSlotLength < len ∨ bodyLen < i + 1 + len then s.stopSlots
  else
    match s.slots.cur with
    | none => s.stopSlots
    | some cur =>
      let t := s.lengthTest cur.treatment len
      let s1 := s.withSlots fun p =>
        { p with
          walker := if len = 0 then afterSlot p.remaining else .slotData
          dataPos := 0
          cur := some ⟨cur.id, len, cur.entry, t.1, []⟩ }
      if t.2 then s1.count .slotMismatch else s1

/-- The records of a consume slot with its data complete (R139). -/
def slotRecords (target : Word) (first count : Nat) (data : List Byte) : List Setpoint :=
  let phase := if data.length = 2 * count + 2 then some (wordAt data (2 * count)) else none
  (List.range count).filterMap fun k =>
    (channelOf (first + k)).map fun c =>
      { chan := c, target := target, onTime := wordAt data (2 * k), phase := phase }

/-- Stages a record; a record staged for the channel before is replaced (R44, R139). -/
def stage (l : List Setpoint) (r : Setpoint) : List Setpoint :=
  l.filter (fun x => decide (x.chan ≠ r.chan)) ++ [r]

/-- A data byte of the current slot (R134, R139, R141). The data position goes up at each, to 64 after the last of 64
(log 31: the model's choice). -/
def State.slotData (s : State) (b : Byte) : State × Byte :=
  match s.slots.cur with
  | none => (s.stopSlots, b)
  | some cur =>
    let got := cur.got ++ [b]
    let last := decide (cur.length ≤ s.slots.dataPos + 1)
    let s1 := s.withSlots fun p =>
      { p with
        walker := bif last then afterSlot p.remaining else .slotData
        dataPos := p.dataPos + 1
        cur := some { cur with got := got } }
    match cur.treatment with
    | .untouched => (s1, b)
    | .produce _ _ _ snap => (s1, snap.getD s.slots.dataPos b)
    | .consume f c =>
      if last ∧ s.node.state.live then
        (s1.withSlots fun p =>
          { p with staging := (slotRecords p.target f c got).foldl stage p.staging }, b)
      else (s1, b)

/-- The walk's own step at a body byte (R134). -/
def State.walk (s : State) (b : Byte) (i bodyLen : Nat) : State × Byte :=
  match s.slots.walker with
  | .header =>
    if i = 0 then (s.withSlots fun p => { p with target := wordOf b 0 }, b)
    else if i = 1 then (s.withSlots fun p => { p with target := wordOf (hiByte p.target) b }, b)
    else (s.withSlots fun p => { p with remaining := b.toNat, walker := afterSlot b.toNat }, b)
  | .slotId => (if bodyLen ≤ i + 1 then (s.beginSlot b).stopSlots else s.beginSlot b, b)
  | .slotLength => (s.slotLength b.toNat i bodyLen, b)
  | .slotData => s.slotData b
  | .tail => (s, b)
  | .stopped => (s, b)
  | .idle => (s, b)

/-- The last body byte leaves declared slots not begun, or the header incomplete (R135). That the parser is then
STOPPED in a body shorter than its header is the model's choice (log 30). -/
def State.bodyShort (s : State) : Bool :=
  match s.slots.walker with
  | .header => true
  | .slotId => true
  | .slotLength => true
  | .slotData => true
  | _ => false

/-- Body byte `i` of a CYCLE frame handed to the parser (R134, R135). -/
def State.slotByte (s : State) (b : Byte) (i bodyLen : Nat) : State × Byte :=
  let r := s.walk b i bodyLen
  if i + 1 = bodyLen ∧ r.1.bodyShort then (r.1.stopSlots, r.2) else r

/-- The end of a CYCLE frame or its cut: a good frame hands its staged records over, any other discards them
(R44, R140). -/
def State.endSlots (s : State) (good : Bool) : State :=
  let s1 := s.withSlots fun p => { p with walker := .idle, staging := [], cur := none }
  if good then s1.takeArrival s.slots.staging else s1

end Sys2Proof.Machine
end

