-- ==== Sys2Proof/Machine/Rolls.lean ====
section
/-! DEFINITION. The Roll Call Handler (spec/07 R128 to R131), byte by byte. -/

namespace Sys2Proof.Machine

/-- A change of the handler's own values. -/
def State.withRoll (s : State) (f : RollCall → RollCall) : State := { s with roll := f s.roll }

/-- The start of a frame handed to the handler. -/
def RollCall.begin (r : RollCall) : RollCall := { r with staged := none, next := none, base := 0, entry := none }

/-- The capacity byte: extent tests, then the index of the entry to write (R129 steps 2 to 4). -/
def State.rollCapacity (s : State) (n : Byte) (c bodyLen : Nat) : State :=
  if 32 < c ∨ bodyLen < 3 + 8 * c then s.markMalformed
  else if s.roll.base.toNat ≤ n.toNat ∧ n.toNat - s.roll.base.toNat < c then
    s.withRoll fun r => { r with entry := some (n.toNat - s.roll.base.toNat) }
  else s

/-- The byte of the node's identity entry that leaves at body byte `i`, else the byte received (R129). -/
def State.entryByte (s : State) (b : Byte) (i : Nat) : Byte :=
  match s.roll.entry with
  | none => b
  | some k =>
    if 3 + 8 * k ≤ i ∧ i < 11 + 8 * k then (identityEntry s.node.state).getD (i - (3 + 8 * k)) b else b

/-- Body byte `i` of a ROLLCALL frame handed to the handler (R129). A next address of 0 or 255 ends the
handler's part in the frame: that its capacity and extent are then not tested, so that they set no malformed mark, is
the model's choice (R122; log 29). -/
def State.rollByte (s : State) (b : Byte) (i bodyLen : Nat) : State × Byte :=
  if i = 0 then
    if b = 0 ∨ b = 255 then (s, b) else (s.withRoll fun r => { r with next := some b, staged := some b }, b + 1)
  else
    match s.roll.next with
    | none => (s, b)
    | some n =>
      if i = 1 then (s.withRoll fun r => { r with base := b }, b)
      else if i = 2 then (s.rollCapacity n b.toNat bodyLen, b)
      else (s, s.entryByte b i)

/-- Adopts a staged address in UNADDRESSED or CONFIG (R130). -/
def State.adopt (s : State) (a : Byte) : State :=
  match s.node.state with
  | .unaddressed =>
    { s with
      roll := { s.roll with address := a }
      node := { s.node with state := .config } }
  | .config => { s with roll := { s.roll with address := a } }
  | .armed => s
  | .run => s
  | .safe => s

/-- The end of a ROLLCALL frame or its cut: a good frame's staged address is adopted; it is then absent
(R130). -/
def State.endRoll (s : State) (good : Bool) : State :=
  State.withRoll
    (match good, s.roll.staged with
      | true, some a => s.adopt a
      | _, _ => s)
    fun r => { r with staged := none, next := none, base := 0, entry := none }

end Sys2Proof.Machine
end

