-- ==== Sys2Proof/Machine/Requests.lean ====
section
/-! DEFINITION. The Management Engine (spec/09): the walk over a MGMT body, the decision of a request, the
replay cache, the reply. -/

namespace Sys2Proof.Machine

/-- The owning block's answer to a request of a kind, sequence and arguments (R150 test 5). -/
def own (k : ReqKind) (seq : Byte) (args : List Byte) (s : State) : Answer :=
  match k with
  | .identify => ownIdentify s
  | .readEntry => ownReadEntry args s
  | .writeEntry => ownWriteEntry args s
  | .copyActive => ownCopyActive s
  | .commit => ownCommit seq args s
  | .arm => ownArm args s
  | .align => ownAlign args s
  | .trim => ownTrim args s
  | .stop => ownStop s
  | .clear => ownClear s
  | .restart => ownRestart s
  | .tripAck => ownTripAck args s
  | .faultRead => ownFaultRead s
  | .faultPop => ownFaultPop args s
  | .countersRead => ownCountersRead s
  | .countersClear => ownCountersClear s
  | .loadBegin => ownLoadBegin args s
  | .loadData => ownLoadData args s
  | .loadEnd => ownLoadEnd seq s
  | .loadCancel => ownLoadCancel s

/-- A change of the engine's frame state. -/
def State.withMgmt (s : State) (f : MgmtFrame → MgmtFrame) : State :=
  { s with mgmt := { s.mgmt with frame := f s.mgmt.frame } }

/-- Prepares a reply (R146). -/
def State.prepare (s : State) (r : Reply) : State := s.withMgmt fun f => { f with reply := some r }

/-- A request decided as new: an argument length the kind does not allow is INVALID, else the owner answers
(R150 tests 4 and 5). -/
def decideNew (k : ReqKind) (seq : Byte) (args : List Byte) (s : State) : Answer :=
  if argLengthOk k args then own k seq args s else answer s .invalid

/-- A cached-kind request decided as new: room is made, it is decided, and its outcome recorded (R155, R156;
log 18). -/
def decideCached (k : ReqKind) (seq : Byte) (args : List Byte) (s : State) : Answer :=
  let a := decideNew k seq args { s with mgmt := s.mgmt.makeRoom seq }
  { a with st := { a.st with mgmt := a.st.mgmt.insert ⟨seq, k, a.status, a.data⟩ } }

/-- A request past the tests of R150 before test 3 or of R159 before test 3: answered from the replay cache,
with the replayed flag, or decided as new. -/
def decideKind (k : ReqKind) (seq : Byte) (args : List Byte) (s : State) : Answer × Bool :=
  if k.cached then
    match s.mgmt.lookup seq k with
    | some r => (answer (s.count .mgmtReplayed) r.status r.data, true)
    | none => (decideCached k seq args s, false)
  else (decideNew k seq args s, false)

/-- The bytes of an addressed reply (R151). -/
def replyBytes (st : Status) (replayed : Bool) (data : List Byte) : List Byte :=
  [st.code, if replayed then 0x01 else 0x00, BitVec.ofNat 8 data.length] ++ data

/-- A reply without data that executes nothing, written when the capacity is 3 or more (R150). -/
def State.replyBare (s : State) (st : Status) (capacity : Nat) : State :=
  if 3 ≤ capacity then s.prepare (.bytes (replyBytes st false [])) else s

/-- The decision of an ADDRESSED request (R150). -/
def State.decideAddressed (s : State) (kind seq : Byte) (args : List Byte) (capacity : Nat) : State :=
  match ReqKind.ofCode kind with
  | none => s.replyBare .unknownRequest capacity
  | some k =>
    if capacity < 3 + largestData k args then s.replyBare .noRoom capacity
    else
      let a := decideKind k seq args s
      a.1.st.prepare (.bytes (replyBytes a.1.status a.2 a.1.data))

/-- The tally a status counts in: done 0, refused 1, pending 2 (R159). -/
def Status.tally : Status → Nat
  | .done => 0
  | .pending => 2
  | _ => 1

/-- The decision of a BROADCAST request (R159). -/
def State.decideBroadcast (s : State) (kind seq : Byte) (args : List Byte) (capacity : Nat) : State :=
  if capacity < 3 then s
  else
    match ReqKind.ofCode kind with
    | none => s.prepare (.tally 1)
    | some k =>
      if k.mayBroadcast then
        let a := decideKind k seq args s
        a.1.st.prepare (.tally a.1.status.tally)
      else s.prepare (.tally 1)

/-- The decision of the frame's request (R149). -/
def State.decideRequest (s : State) (capacity : Nat) : State :=
  let f := s.mgmt.frame
  match f.ind with
  | .none => s
  | .addressed =>
    if s.relay.frame.symErr ∨ s.relay.frame.malformed then s
    else if f.checkOk then s.decideAddressed f.kind f.seq f.args capacity
    else s.count .mgmtCheckBad
  | .broadcast =>
    if s.relay.frame.symErr ∨ s.relay.frame.malformed then s
    else if f.checkOk then s.decideBroadcast f.kind f.seq f.args capacity
    else s.count .mgmtCheckBad

/-- The match indication of a destination byte (R147). -/
def matchOf (dest address : Byte) : MatchInd :=
  if dest = address then .addressed else if dest = 255 then .broadcast else .none

/-- The engine finds the frame malformed and stops acting on it (R148). -/
def State.stopMgmt (s : State) : State := s.markMalformed.withMgmt fun f => { f with phase := .stopped }

/-- The reply byte that leaves in place of `b` at a reply position (R151, R159). -/
def replyByte (r : Option Reply) (pos : Nat) (b : Byte) : Byte :=
  match r with
  | none => b
  | some (.bytes l) => l.getD pos b
  | some (.tally k) => if pos = k then (if b = 255 then 255 else b + 1) else b

/-- The phase after the argument length or an argument byte. -/
def afterArgs (received total : Nat) : MgmtPhase := if received < total then .args else .check

/-- The reply capacity byte: extent tests, then the decision (R148, R149). -/
def State.capacityByte (s : State) (r bodyLen : Nat) : State :=
  if 64 < r ∨ bodyLen < 6 + s.mgmt.frame.argLen + r then s.stopMgmt
  else
    State.decideRequest
      (s.withMgmt fun f => { f with capacity := r, phase := if r = 0 then .tail else .reply }) r

/-- A body byte of a MGMT frame handed to the engine (R146 to R151). -/
def State.mgmtByte (s : State) (b : Byte) (bodyLen : Nat) : State × Byte :=
  match s.mgmt.frame.phase with
  | .dest =>
    (s.withMgmt fun f =>
      { f with phase := .seq, ind := matchOf b s.roll.address, crc := crc8Step 0 b }, b)
  | .seq => (s.withMgmt fun f => { f with phase := .kind, seq := b, crc := crc8Step f.crc b }, b)
  | .kind => (s.withMgmt fun f => { f with phase := .argLen, kind := b, crc := crc8Step f.crc b }, b)
  | .argLen =>
    (if 48 < b.toNat ∨ bodyLen < 6 + b.toNat then s.stopMgmt
      else
        s.withMgmt fun f =>
          { f with phase := afterArgs 0 b.toNat, argLen := b.toNat, args := [], crc := crc8Step f.crc b }, b)
  | .args =>
    (s.withMgmt fun f =>
      { f with
        phase := afterArgs (f.args.length + 1) f.argLen, args := f.args ++ [b], crc := crc8Step f.crc b }, b)
  | .check => (s.withMgmt fun f => { f with phase := .capacity, checkOk := decide (b = f.crc) }, b)
  | .capacity => (s.capacityByte b.toNat bodyLen, b)
  | .reply =>
    (s.withMgmt fun f =>
      { f with
        phase := if f.replyPos + 1 < f.capacity then .reply else .tail, replyPos := f.replyPos + 1 },
      replyByte s.mgmt.frame.reply s.mgmt.frame.replyPos b)
  | .tail => (s, b)
  | .stopped => (s, b)

end Sys2Proof.Machine
end

