-- ==== Sys2Proof/Machine/Link.lean ====
section
/-! DEFINITION. The Link Relay (spec/07): receiving symbols, forwarding them, delimiting, checking, judging and
counting frames, replacing the trailer. -/

namespace Sys2Proof.Machine

/-! ## Forwarding (R117) -/

/-- A symbol enters the node's delay line and the oldest one leaves LINK_OUT (R117). -/
def Relay.forward (r : Relay) (x : Symbol) : Relay :=
  match r.line ++ [x] with
  | [] => r
  | h :: t => { r with line := t, sent := r.sent ++ [h] }

def State.forward (s : State) (x : Symbol) : State := { s with relay := s.relay.forward x }

/-- A change of the frame check state. -/
def State.withFrame (s : State) (f : FrameCheck → FrameCheck) : State :=
  { s with relay := { s.relay with frame := f s.relay.frame } }

/-! ## The frame check state (R119, R121, R122) -/

/-- A received byte position: the position advances and stays at 1026 (`past` counts on), the CRC runs two bytes behind, kind
and length are kept, and the marks are set (R119, R121, R122). -/
def FrameCheck.receive (f : FrameCheck) (b : Byte) : FrameCheck :=
  { f with
    pos := min (f.pos + 1) (Config.maxPositions + 1)
    past := if Config.maxPositions < f.pos then f.past + 1 else f.past
    crcIn := if 2 ≤ f.pos then crc16Step f.crcIn f.in2 else f.crcIn
    in2 := f.in1
    in1 := b
    kind := if f.pos = 0 then some b else f.kind
    lenHi := if f.pos = 1 then b else f.lenHi
    length := if f.pos = 2 then some (wordOf f.lenHi b) else f.length
    malformed :=
      f.malformed || decide (Config.maxPositions < f.pos + 1)
        || (decide (f.pos = 2) && decide (Config.maxBody < (wordOf f.lenHi b).toNat)) }

/-- A byte that leaves at byte position `pos`, counted from 0 (R124). -/
def FrameCheck.send (f : FrameCheck) (pos : Nat) (b : Byte) : FrameCheck :=
  { f with crcOut := if 2 ≤ pos then crc16Step f.crcOut f.out2 else f.crcOut, out2 := f.out1, out1 := b }

/-- The body length given by the length field. -/
def FrameCheck.bodyLen (f : FrameCheck) : Nat := (f.length.getD 0).toNat

/-- The incoming trailer passes (R121). -/
def FrameCheck.trailerOk (f : FrameCheck) : Bool := decide (5 ≤ f.pos) && decide (wordOf f.in2 f.in1 = f.crcIn)

/-- The fixed part of a known kind (R122). -/
def fixedPart (kind : Option Byte) : Nat :=
  if kind = some kindCycle then 3
  else if kind = some kindMgmt then 6
  else if kind = some kindRollcall then 3
  else 0

/-- The frame is malformed at its end: marked before, or of wrong extent, or too short for its kind
(R122). -/
def FrameCheck.malformedAtEnd (f : FrameCheck) : Bool :=
  f.malformed || decide (f.pos < 5) || decide (f.pos ≠ 5 + f.bodyLen) || decide (f.bodyLen < fixedPart f.kind)

/-- The judgement of a frame at its end (R123). -/
def FrameCheck.good (f : FrameCheck) : Bool := f.trailerOk && !f.symErr && !f.malformedAtEnd

/-- The outgoing trailer: the CRC of the outgoing bytes, each bit inverted for a bad frame (R124). -/
def FrameCheck.trailer (f : FrameCheck) : Word := if f.good then f.crcOut else ~~~f.crcOut

/-- The last two symbols inside the node replaced by a trailer (R124). -/
def putTrailer (line : List Symbol) (w : Word) : List Symbol :=
  line.take (line.length - 2) ++ [.byte (hiByte w), .byte (loByte w)]

/-! ## Parsers (R125) -/

/-- The parser a kind is handed to in a node state (R125). -/
def parserFor (kind : Byte) (n : NodeState) : Parser :=
  if kind = kindCycle then
    match n with
    | .armed => .slot
    | .run => .slot
    | .safe => .slot
    | .unaddressed => .none
    | .config => .none
  else if kind = kindMgmt then (if n = .unaddressed then .none else .mgmt)
  else if kind = kindRollcall then
    match n with
    | .unaddressed => .roll
    | .config => .roll
    | .armed => .none
    | .run => .none
    | .safe => .none
  else .none

/-- The kind has arrived: the parser is chosen and begins its frame (R125, R132, R146). R132 and R146 have a parser begin at
the FRAME_START of a frame handed to it, which R125 decides only now: that it begins here is the model's choice (log 33). -/
def State.choose (s : State) (kind : Byte) : State :=
  let p := parserFor kind s.node.state
  let s1 := s.withFrame fun f => { f with parser := p }
  match p with
  | .none => s1
  | .slot => s1.withSlots SlotParser.begin
  | .mgmt => s1.withMgmt fun _ => .clear
  | .roll => s1.withRoll RollCall.begin

/-- A body byte handed to the frame's parser, with the byte that leaves (R117, R125). -/
def State.parse (s : State) (b : Byte) (i : Nat) : State × Byte :=
  match s.relay.frame.parser with
  | .none => (s, b)
  | .slot => s.slotByte b i s.relay.frame.bodyLen
  | .mgmt => s.mgmtByte b s.relay.frame.bodyLen
  | .roll => s.rollByte b i s.relay.frame.bodyLen

/-- A byte position of the frame in progress: checked, handed to the parser when it lies in the declared body, whatever
that body's length (R119, R135; log 14), and forwarded (R117). -/
def State.receiveByte (s : State) (b : Byte) : State :=
  let p := s.relay.frame.pos
  let k := p + s.relay.frame.past
  let s1 := s.withFrame fun f => f.receive b
  let r :=
    if p = 0 then (s1.choose b, b)
    else if 3 ≤ p ∧ k < 3 + s1.relay.frame.bodyLen then s1.parse b (k - 3)
    else (s1, b)
  (r.1.withFrame fun f => f.send p r.2).forward (.byte r.2)

/-! ## Frame start, end and cut (R119, R120, R123) -/

/-- A frame begins: the frame check state is cleared (R119). -/
def State.startFrame (s : State) : State :=
  { s with relay := { s.relay with rx := .inFrame, frame := .clear } }.forward .frameStart

/-- The parser of the frame learns that it ended, and how it was judged (R123). -/
def State.endParser (s : State) (p : Parser) (good : Bool) : State :=
  match p with
  | .none => s
  | .slot => s.endSlots good
  | .mgmt => s
  | .roll => s.endRoll good

/-- The good-cycle-frame event (R34). -/
def State.goodCycle (s : State) : State :=
  if s.node.state.live then { s with node := { s.node with loss := 0 } } else s

/-- FRAME_END: the frame is judged and counted, its trailer replaced, and the judgement handed on
(R123, R124). -/
def State.endFrame (s : State) : State :=
  let f := s.relay.frame
  let s1 := s.count (if f.good then .framesGood else .framesBad)
  let s2 :=
    { s1 with
      relay := { s1.relay with
        rx := .idle
        frame := .clear
        line := if 2 ≤ f.pos then putTrailer s1.relay.line f.trailer else s1.relay.line } }
  let s3 := s2.endParser f.parser f.good
  (if f.good ∧ f.kind = some kindCycle then s3.goodCycle else s3).forward .frameEnd

/-- The frame in progress is cut: judged bad, counted, staged records and staged address discarded
(R120). -/
def State.cutFrame (s : State) : State :=
  let p := s.relay.frame.parser
  State.endParser
    { s.count .framesBad with relay := { s.relay with rx := .idle, frame := .clear } } p false

/-! ## Symbols (R116, R118, R119) -/

/-- A symbol received while the relay is at work (R116, R119). An invalid symbol of a frame is read as the byte 00H at its
position, also where that is the kind or a length byte: the model's choice (log 12). -/
def State.relaySymbol (s : State) (x : Symbol) : State :=
  match s.relay.rx with
  | .idle =>
    match x with
    | .frameStart => s.startFrame
    | .byte b => s.forward (.byte b)
    | .frameEnd => s.forward .frameEnd
    | .idle => s.forward .idle
    | .invalid => (s.count .symbolErrors).forward .idle
  | .inFrame =>
    match x with
    | .byte b => s.receiveByte b
    | .frameEnd => s.endFrame
    | .frameStart => s.cutFrame.startFrame
    | .idle => s.cutFrame.forward .idle
    | .invalid => ((s.count .symbolErrors).withFrame fun f => { f with symErr := true }).receiveByte 0

/-- A symbol arrives at LINK_IN: lost without supply (log 9), copied by the bypass in reset (R118), else
received by the relay. -/
def State.receive (s : State) (x : Symbol) : State :=
  if s.pins.supply = false then
    { s with
      relay := { s.relay with sent := s.relay.sent ++ [Config.unpoweredSymbol s.freeCount] }
      freeCount := s.freeCount + 1 }
  else if s.relay.bypass then s.forward x
  else s.relaySymbol x

/-- Symbols arrive at LINK_IN in successive byte times; `sent` then holds what left LINK_OUT meanwhile
(log 8). -/
def State.feed (s : State) (l : List Symbol) : State :=
  l.foldl State.receive { s with relay := { s.relay with sent := [] } }

/-! ## The frames of requests (11.1, 11.3) -/

/-- The body of a request's MGMT frame (11.3). -/
def requestBody (r : Request) (kind : Byte) (args : List Byte) : List Byte :=
  let head := [r.dest, r.seq, kind, BitVec.ofNat 8 args.length] ++ args
  head ++ [crc8 head, BitVec.ofNat 8 r.area.length] ++ r.area ++ r.padding

/-- The bytes of a frame before its trailer (11.1). -/
def frameBytes (kind : Byte) (body : List Byte) : List Byte :=
  [kind] ++ wordBytes (BitVec.ofNat 16 body.length) ++ body

/-- A frame's symbols (11.1). -/
def frameSymbols (kind : Byte) (body : List Byte) : List Symbol :=
  [Symbol.frameStart]
    ++ (frameBytes kind body ++ wordBytes (crc16 (frameBytes kind body))).map Symbol.byte ++ [Symbol.frameEnd]

/-- Symbols of a frame that arrive as another symbol. -/
def damaged (l : List Symbol) : List (Nat × Symbol) → List Symbol
  | [] => l
  | (k, x) :: t => damaged (l.set k x) t

/-- The symbols by which a request reaches the node. -/
def requestSymbols (r : Request) (kind : Byte) (args : List Byte) : List Symbol :=
  damaged (frameSymbols kindMgmt (requestBody r kind args)) r.damage

/-- The frame of a request passes the node. -/
def State.feedRequest (s : State) (kind : Byte) (args : List Byte) (r : Request) : State :=
  s.feed (requestSymbols r kind args)

end Sys2Proof.Machine
end

