-- ==== Sys2Proof/Machine/Events.lean ====
section
/-! DEFINITION. The events of the node's own timers, of its pins, and of power and reset (spec/02, 04, 05, 10).
An event of a timer says that it is the next thing to happen: the ticks until it is due pass, and it is taken
(log 4). An event that cannot come about in the state changes nothing (log 11). -/

namespace Sys2Proof.Machine

/-- PERIOD_BOUNDARY (R23): the tick count wraps, with every block's boundary work. -/
def execPeriodBoundary (s : State) : Host.Outcome State Fault Refusal :=
  .next (if s.timer.running then (s.elapse s.timer.toBoundary).boundary else s)

/-- PLANNED_CHANGE of channel `c` (R70, R76): its plan's next interval comes into force. -/
def execPlannedChange (c : Fin 6) (s : State) : Host.Outcome State Fault Refusal :=
  .next
    (match (s.gen.get c).nextChange with
      | none => s
      | some a =>
        if s.node.state = .run then
          let s1 := s.elapse (a - s.timer.tick)
          State.drive
            { s1 with
              gen := s1.gen.modify c fun g =>
                g.change a s1.timer.tick (channelDead s1.bank.activeImage c) }
        else s)

/-- DEAD_TIME_END of channel `c` (R70): the side of the run in progress becomes active. A run that ends with
its dead time shows no active tick (R72; log 25). -/
def execDeadTimeEnd (c : Fin 6) (s : State) : Host.Outcome State Fault Refusal :=
  .next
    (match (s.gen.get c).dead with
      | none => s
      | some r =>
        let s1 := s.elapse r
        if s1.deadEndDue c then State.drive { s1 with gen := s1.gen.modify c fun g => { g with dead := none } }
        else s)

/-- TRIP on input `i` (R87): the ticks that complete its filter pass, and its trip is detected. -/
def execTrip (i : Fin 4) (s : State) : Host.Outcome State Fault Refusal :=
  .next
    (if (s.prot.inputs.get i).canTrip s.node.state then
      (s.elapse (s.prot.inputs.get i).toTrip).detectTrip i
    else s)

/-- ASSERTION_EPISODE_END of input `i` (R87, R88): its pin goes to the deasserted level, which clears its
filter count and its episode flag. -/
def execAssertionEpisodeEnd (i : Fin 4) (s : State) : Host.Outcome State Fault Refusal :=
  .next
    { s with
      prot := { s.prot with
        inputs := s.prot.inputs.modify i fun x =>
          { x with pin := decide (x.entry.polarity = .activeLow), count := 0, episode := false } } }

/-- TRIP_INPUT_ASSERTION of input `i` (R84, R88): its pin goes to the asserted level; its filter counts the
ticks from this one on as they pass (R87). -/
def execTripInputAssertion (i : Fin 4) (s : State) : Host.Outcome State Fault Refusal :=
  .next
    { s with
      prot := { s.prot with
        inputs := s.prot.inputs.modify i fun x => { x with pin := decide (x.entry.polarity = .activeHigh) } } }

/-- RESTORE_TIMER_EXPIRY of group `g` (R95). -/
def execRestoreTimerExpiry (g : Fin 2) (s : State) : Host.Outcome State Fault Refusal :=
  .next
    (if s.node.state.live ∧ (s.prot.groups.get g).state = .timedOff then
      (s.elapse (s.prot.groups.get g).timer).restoreExpiry g
    else s)

/-- GAP_TIMER_EXPIRY (R169). -/
def execGapTimerExpiry (s : State) : Host.Outcome State Fault Refusal :=
  .next (if s.load.state = .receiving then (s.elapse s.load.gap).gapExpiry else s)

/-- CHECK_COMPLETION (R171). -/
def execCheckCompletion (s : State) : Host.Outcome State Fault Refusal :=
  .next (if s.load.state = .checking then (s.elapse s.load.checkLeft).completeCheck else s)

/-- DRV_OK_FALL (R36): a low sample after a high one sends an ARMED or RUN node to SAFE. -/
def execDrvOkFall (s : State) : Host.Outcome State Fault Refusal :=
  .next
    (if s.pins.drvOk then
      State.enterSafe { s with pins := { s.pins with drvOk := false } } .supplyLoss (some .supplyLoss) none
    else s)

/-- DRV_OK_RISE (R36): the sampled level is high again. -/
def execDrvOkRise (s : State) : Host.Outcome State Fault Refusal :=
  .next { s with pins := { s.pins with drvOk := true } }

/-- Every block at its power-on values, the pins at the levels they have, the symbols inside the node and
the commands that wait kept (R21, R22, R26, R40, R62, R81, R101, R111, R115, R127, R128, R145, R158,
R165). -/
def State.powerOnValues (s : State) (bypass : Bool) : State :=
  { State.reset with
    pins := s.pins
    relay := { Relay.powerOn with bypass := bypass, line := s.relay.line, sent := s.relay.sent }
    prot := { State.reset.prot with inputs := s.prot.inputs.map fun i => TripInput.powerOn i.pin }
    pending := s.pending
    freeCount := s.freeCount }

/-- RESET_N_ASSERTED (R40, R118): every operation ends, the reset values stand, the bypass is active. The
symbols inside the node leave as they are. -/
def execResetNAsserted (s : State) : Host.Outcome State Fault Refusal :=
  .next (State.powerOnValues { s with pins := { s.pins with resetN := false } } true)

/-- RESET_N_RELEASED (R40, R118): the relay takes over in receiver state IDLE. -/
def execResetNReleased (s : State) : Host.Outcome State Fault Refusal :=
  .next
    (if s.pins.resetN then s
    else { s with pins := { s.pins with resetN := true }, relay := { s.relay with bypass := false } })

/-- POWER_ON (R40): every block at its power-on values; the bypass is active while RESET_N is still held low
(R118; logs 7 and 10). -/
def execPowerOn (s : State) : Host.Outcome State Fault Refusal :=
  .next
    (State.powerOnValues
      { s with
        pins := { s.pins with supply := true }
        relay := { s.relay with line := Relay.powerOn.line, sent := [] } }
      (!s.pins.resetN))

/-- POWER_LOSS (R74, R40): every gate pin inactive until the next power-up; no state outlasts the supply
(log 9). -/
def execPowerLoss (s : State) : Host.Outcome State Fault Refusal :=
  .next (State.powerOnValues { s with pins := { s.pins with supply := false } } false)

end Sys2Proof.Machine
end

