-- ==== Sys2Proof/Machine/Frames.lean ====
section
/-! DEFINITION. The commands that arrive as frames on the ring (spec/07 to spec/10): the three frame rows, the
invalid symbol, and one meaning for each request. A request's meaning is the passing of its MGMT frame; the
engine decides it at its reply capacity byte (R149) by the owner's function named in its docstring. -/

namespace Sys2Proof.Machine

/-- What every command of this block answers. -/
abbrev Result := Host.Outcome State Fault Refusal

/-- An invalid symbol at LINK_IN (R116). -/
def execInvalidSymbol (s : State) : Result := .next (s.feed [.invalid])

/-- The symbols of a CYCLE frame, or of a part of one, pass the node (R134, R45, R141). -/
def execCycleFrame (symbols : List Symbol) (s : State) : Result := .next (s.feed symbols)

/-- The symbols of a ROLLCALL frame, or of a part of one, pass the node (R129, R130). -/
def execRollcall (symbols : List Symbol) (s : State) : Result := .next (s.feed symbols)

/-- The symbols of a frame of unknown kind, of a frame forwarded untouched, or stray symbols pass the node
(R125, R119). -/
def execUnknownKindFrame (symbols : List Symbol) (s : State) : Result := .next (s.feed symbols)

/-- A request of a kind the node does not know (R150 test 1, R159 test 2). -/
def execUnknownRequest (kind : Byte) (r : Request) (s : State) : Result := .next (s.feedRequest kind r.args r)

/-- WRITE ENTRY to a bank table (R9, R164), or to a table code that is unknown: `writeBank`. -/
def execWriteEntryBank (table : Byte) (r : Request) (s : State) : Result :=
  .next (s.feedRequest ReqKind.writeEntry.code (table :: r.args) r)

/-- WRITE ENTRY to the TRIP INPUT table (R82): `writeTripInput`. -/
def execWriteEntryTripInput (r : Request) (s : State) : Result :=
  .next (s.feedRequest ReqKind.writeEntry.code (0x04 :: r.args) r)

/-- WRITE ENTRY to the GROUP table (R83): `writeGroup`. -/
def execWriteEntryGroup (r : Request) (s : State) : Result :=
  .next (s.feedRequest ReqKind.writeEntry.code (0x05 :: r.args) r)

/-- WRITE ENTRY to the NODE table (R164, R29): `writeNode`. -/
def execWriteEntryNode (r : Request) (s : State) : Result :=
  .next (s.feedRequest ReqKind.writeEntry.code (0x06 :: r.args) r)

/-- IDENTIFY (R161): the reply carries the identification; no state changes: `ownIdentify`. -/
def execIdentify (r : Request) (s : State) : Result := .next (s.feedRequest ReqKind.identify.code r.args r)

/-- READ ENTRY (R163): the reply carries the entry as stored; no state changes: `ownReadEntry`. -/
def execReadEntry (r : Request) (s : State) : Result := .next (s.feedRequest ReqKind.readEntry.code r.args r)

/-- COPY ACTIVE (R20): `ownCopyActive`. -/
def execCopyActive (r : Request) (s : State) : Result := .next (s.feedRequest ReqKind.copyActive.code r.args r)

/-- COMMIT (R14, R15): an immediate swap in CONFIG, a pending commit in ARMED and RUN: `ownCommit`. -/
def execCommit (r : Request) (s : State) : Result := .next (s.feedRequest ReqKind.commit.code r.args r)

/-- ARM (R27, R28): `ownArm`. -/
def execArm (r : Request) (s : State) : Result := .next (s.feedRequest ReqKind.arm.code r.args r)

/-- ALIGN (R31): `ownAlign`. -/
def execAlign (r : Request) (s : State) : Result := .next (s.feedRequest ReqKind.align.code r.args r)

/-- TRIM (R25): `ownTrim`. -/
def execTrim (r : Request) (s : State) : Result := .next (s.feedRequest ReqKind.trim.code r.args r)

/-- STOP (R32): `ownStop`. -/
def execStop (r : Request) (s : State) : Result := .next (s.feedRequest ReqKind.stop.code r.args r)

/-- CLEAR (R38): `ownClear`. -/
def execClear (r : Request) (s : State) : Result := .next (s.feedRequest ReqKind.clear.code r.args r)

/-- RESTART (R39): `ownRestart`. -/
def execRestart (r : Request) (s : State) : Result := .next (s.feedRequest ReqKind.restart.code r.args r)

/-- TRIP ACK (R99): `ownTripAck`. -/
def execTripAck (r : Request) (s : State) : Result := .next (s.feedRequest ReqKind.tripAck.code r.args r)

/-- FAULT READ (R109): `ownFaultRead`. -/
def execFaultRead (r : Request) (s : State) : Result := .next (s.feedRequest ReqKind.faultRead.code r.args r)

/-- FAULT POP (R110): `ownFaultPop`. -/
def execFaultPop (r : Request) (s : State) : Result := .next (s.feedRequest ReqKind.faultPop.code r.args r)

/-- COUNTERS READ (R113): `ownCountersRead`. -/
def execCountersRead (r : Request) (s : State) : Result := .next (s.feedRequest ReqKind.countersRead.code r.args r)

/-- COUNTERS CLEAR (R114): `ownCountersClear`. -/
def execCountersClear (r : Request) (s : State) : Result := .next (s.feedRequest ReqKind.countersClear.code r.args r)

/-- LOAD BEGIN (R166): `ownLoadBegin`. -/
def execLoadBegin (r : Request) (s : State) : Result := .next (s.feedRequest ReqKind.loadBegin.code r.args r)

/-- LOAD DATA (R167, R168): `ownLoadData`. -/
def execLoadData (r : Request) (s : State) : Result := .next (s.feedRequest ReqKind.loadData.code r.args r)

/-- LOAD END (R170): `ownLoadEnd`. -/
def execLoadEnd (r : Request) (s : State) : Result := .next (s.feedRequest ReqKind.loadEnd.code r.args r)

/-- LOAD CANCEL (R172): `ownLoadCancel`. -/
def execLoadCancel (r : Request) (s : State) : Result := .next (s.feedRequest ReqKind.loadCancel.code r.args r)

end Sys2Proof.Machine
end

