-- ==== Sys2Proof/Machine/Dispatch.lean ====
section
/-! DEFINITION. One arm for each row of spec/opcode_table.json. -/

namespace Sys2Proof.Machine

def exec (i : Instr) (s : State) : Host.Outcome State Fault Refusal :=
  match i with
  | .powerOn => Sys2Proof.Machine.execPowerOn s
  | .resetNAsserted => Sys2Proof.Machine.execResetNAsserted s
  | .resetNReleased => Sys2Proof.Machine.execResetNReleased s
  | .invalidSymbol => Sys2Proof.Machine.execInvalidSymbol s
  | .cycleFrame symbols => Sys2Proof.Machine.execCycleFrame symbols s
  | .rollcall symbols => Sys2Proof.Machine.execRollcall symbols s
  | .unknownKindFrame symbols => Sys2Proof.Machine.execUnknownKindFrame symbols s
  | .unknownRequest kind r => Sys2Proof.Machine.execUnknownRequest kind r s
  | .identify r => Sys2Proof.Machine.execIdentify r s
  | .readEntry r => Sys2Proof.Machine.execReadEntry r s
  | .writeEntryBank table r => Sys2Proof.Machine.execWriteEntryBank table r s
  | .writeEntryTripInput r => Sys2Proof.Machine.execWriteEntryTripInput r s
  | .writeEntryGroup r => Sys2Proof.Machine.execWriteEntryGroup r s
  | .writeEntryNode r => Sys2Proof.Machine.execWriteEntryNode r s
  | .copyActive r => Sys2Proof.Machine.execCopyActive r s
  | .commit r => Sys2Proof.Machine.execCommit r s
  | .arm r => Sys2Proof.Machine.execArm r s
  | .align r => Sys2Proof.Machine.execAlign r s
  | .trim r => Sys2Proof.Machine.execTrim r s
  | .stop r => Sys2Proof.Machine.execStop r s
  | .clear r => Sys2Proof.Machine.execClear r s
  | .restart r => Sys2Proof.Machine.execRestart r s
  | .tripAck r => Sys2Proof.Machine.execTripAck r s
  | .faultRead r => Sys2Proof.Machine.execFaultRead r s
  | .faultPop r => Sys2Proof.Machine.execFaultPop r s
  | .countersRead r => Sys2Proof.Machine.execCountersRead r s
  | .countersClear r => Sys2Proof.Machine.execCountersClear r s
  | .loadBegin r => Sys2Proof.Machine.execLoadBegin r s
  | .loadData r => Sys2Proof.Machine.execLoadData r s
  | .loadEnd r => Sys2Proof.Machine.execLoadEnd r s
  | .loadCancel r => Sys2Proof.Machine.execLoadCancel r s
  | .periodBoundary => Sys2Proof.Machine.execPeriodBoundary s
  | .drvOkFall => Sys2Proof.Machine.execDrvOkFall s
  | .plannedChange c => Sys2Proof.Machine.execPlannedChange c s
  | .deadTimeEnd c => Sys2Proof.Machine.execDeadTimeEnd c s
  | .trip x => Sys2Proof.Machine.execTrip x s
  | .assertionEpisodeEnd x => Sys2Proof.Machine.execAssertionEpisodeEnd x s
  | .restoreTimerExpiry g => Sys2Proof.Machine.execRestoreTimerExpiry g s
  | .gapTimerExpiry => Sys2Proof.Machine.execGapTimerExpiry s
  | .checkCompletion => Sys2Proof.Machine.execCheckCompletion s
  | .drvOkRise => Sys2Proof.Machine.execDrvOkRise s
  | .tripInputAssertion x => Sys2Proof.Machine.execTripInputAssertion x s
  | .powerLoss => Sys2Proof.Machine.execPowerLoss s

end Sys2Proof.Machine
end

