-- ==== Sys2Proof/Machine/Step.lean ====
section
/-! DEFINITION. One step: the command at the front of the queue; on an empty queue an event that is due enters
it, and with none due one tick passes (logs 3 and 5). -/

namespace Sys2Proof.Machine

/-- A step on an empty queue (logs 3 and 5): time moves only when no event is due; else one event that is due enters the
queue. What is due after it is decided on the state that it leaves, so an event that another one cancels or puts off in
the same tick does not come (R96). -/
def State.idle (s : State) : State :=
  match s.dueEvents with
  | [] => s.elapse 1
  | [e] => { s with pending := [e] }
  | e :: l => { s with pending := [firstTaken s.freeCount e l], freeCount := s.freeCount + 1 }

/-- Takes the command at the front of the queue and runs it with the queue's rest. -/
def step (s : State) : Host.Outcome State Fault Refusal :=
  match s.pending with
  | [] => .next s.idle
  | c :: rest => exec c { s with pending := rest }

/-- `s` with the command a word spells at the front of its queue; unchanged where the word spells none. -/
def State.withFetchWord (s : State) (nbits w : Nat) : State :=
  match decodeTableWord nbits w with
  | some i => { s with pending := i :: s.pending }
  | none => s

end Sys2Proof.Machine
end

