-- ==== Sys2Proof/Safety.lean ====
section
/-! DEFINITION. The terms statements are made in: when a frame reaches the node, how a frame leaves it, validation in the
bytes of an image, the events that are due, and the invariants of the machine. -/

namespace Sys2Proof.Machine

/-! ## Frames and requests -/

/-- The node can receive a frame: it has its supply, the bypass is inactive, no frame is in progress, and the
20 symbols of the delay stand inside it (R117 to R119). -/
structure State.Ready (s : State) : Prop where
  supply : s.pins.supply = true
  released : s.relay.bypass = false
  between : s.relay.rx = .idle
  delay : s.relay.line.length = Config.forwardDelay

/-- A request's frame arrives undamaged and within the sizes of R146 and R148. -/
structure Intact (r : Request) (args : List Byte) : Prop where
  undamaged : r.damage = []
  argSize : args.length ≤ 48
  areaSize : r.area.length ≤ 64
  bodySize : 6 + args.length + r.area.length + r.padding.length ≤ 1020

/-- A request reaches the node it names for the first time, in a form and with a reply area that R150 lets through
to the owning block: tests 1 to 4 do not apply. -/
structure State.Takes (s : State) (k : ReqKind) (args : List Byte) (r : Request) : Prop where
  ready : s.Ready
  addressed : s.node.state ≠ .unaddressed
  dest : r.dest = s.roll.address
  intact : Intact r args
  room : 3 + largestData k args ≤ r.area.length
  form : argLengthOk k args = true
  fresh : k.cached = true → s.mgmt.lookup r.seq k = none

/-- The relay after a whole frame: `out` has followed what stood in the delay line, the receiver is IDLE and the
frame check state cleared (R117, R119, R123). -/
structure Relay.Passed (old new : Relay) (out : List Symbol) : Prop where
  symbols : new.sent ++ new.line = old.line ++ out
  delay : new.line.length = old.line.length
  rx : new.rx = .idle
  frame : new.frame = .clear
  bypass : new.bypass = old.bypass

/-- The symbols of a request's frame as it leaves, `area` standing in its reply area: the trailer is the CRC of the
bytes that leave (R124, R151). -/
def requestOut (r : Request) (kind : Byte) (args area : List Byte) : List Symbol :=
  frameSymbols kindMgmt (requestBody { r with area := area } kind args)

/-- A reply area after a prepared reply (R151, R159). -/
def Reply.over (p : Option Reply) (area : List Byte) : List Byte :=
  match p with
  | none => area
  | some (.bytes l) => l.take area.length ++ area.drop l.length
  | some (.tally k) => area.modify k fun b => if b = 255 then 255 else b + 1

/-- The command `i`, a request `r` of kind `k` with arguments `args`, answers a next state: `t`, but for the
relay, the frame state of the engine, and the frame itself counted in frames_good (R123); the frame leaves with
status and data in its reply area, and with `flag` as the replayed flag (R151). -/
def Answers (i : Instr) (k : Byte) (args : List Byte) (r : Request) (s : State) (status : Status) (flag : Bool)
    (data : List Byte) (t : State) : Prop :=
  ∃ relay frame,
    exec i s = .next
      { t with
        relay := relay, mgmt := { t.mgmt with frame := frame }, counters := t.counters.add 1 .framesGood }
    ∧ s.relay.Passed relay
        (requestOut r k args (replyBytes status flag data ++ r.area.drop (3 + data.length)))

/-- A broadcast request that the node takes and decides as new in a form the kind allows: tests 1 to 4 of R159 do not
apply. -/
structure State.TakesBroadcast (s : State) (k : ReqKind) (args : List Byte) (r : Request) : Prop where
  ready : s.Ready
  addressed : s.node.state ≠ .unaddressed
  dest : r.dest = 255
  other : s.roll.address ≠ 255
  intact : Intact r args
  room : 3 ≤ r.area.length
  form : argLengthOk k args = true
  fresh : k.cached = true → s.mgmt.lookup r.seq k = none

/-- As `Answers`, for a broadcast: of the reply area the tally byte `n` alone changes, to one more, 255 staying 255
(R159). -/
def Tallied (i : Instr) (k : Byte) (args : List Byte) (r : Request) (s : State) (n : Nat) (t : State) : Prop :=
  ∃ relay frame,
    exec i s = .next
      { t with
        relay := relay, mgmt := { t.mgmt with frame := frame }, counters := t.counters.add 1 .framesGood }
    ∧ s.relay.Passed relay (requestOut r k args (r.area.modify n fun b => if b = 255 then 255 else b + 1))

/-- As `Answers`, for a request whose reply area leaves as it arrived. -/
def Unanswered (i : Instr) (k : Byte) (args : List Byte) (r : Request) (s : State) (t : State) : Prop :=
  ∃ relay frame,
    exec i s = .next
      { t with
        relay := relay, mgmt := { t.mgmt with frame := frame }, counters := t.counters.add 1 .framesGood }
    ∧ s.relay.Passed relay (requestOut r k args r.area)

/-- What a request command carries: its kind byte, its argument bytes and its request; none for the other rows. -/
def carried : Instr → Option (Byte × List Byte × Request)
  | .unknownRequest kind r => some (kind, r.args, r)
  | .identify r => some (0x01, r.args, r)
  | .readEntry r => some (0x02, r.args, r)
  | .writeEntryBank table r => some (0x03, table :: r.args, r)
  | .writeEntryTripInput r => some (0x03, 0x04 :: r.args, r)
  | .writeEntryGroup r => some (0x03, 0x05 :: r.args, r)
  | .writeEntryNode r => some (0x03, 0x06 :: r.args, r)
  | .copyActive r => some (0x04, r.args, r)
  | .commit r => some (0x05, r.args, r)
  | .arm r => some (0x06, r.args, r)
  | .align r => some (0x07, r.args, r)
  | .trim r => some (0x08, r.args, r)
  | .stop r => some (0x09, r.args, r)
  | .clear r => some (0x0A, r.args, r)
  | .restart r => some (0x0B, r.args, r)
  | .tripAck r => some (0x0C, r.args, r)
  | .faultRead r => some (0x0D, r.args, r)
  | .faultPop r => some (0x0E, r.args, r)
  | .countersRead r => some (0x0F, r.args, r)
  | .countersClear r => some (0x10, r.args, r)
  | .loadBegin r => some (0x11, r.args, r)
  | .loadData r => some (0x12, r.args, r)
  | .loadEnd r => some (0x13, r.args, r)
  | .loadCancel r => some (0x14, r.args, r)
  | .powerOn => none
  | .resetNAsserted => none
  | .resetNReleased => none
  | .invalidSymbol => none
  | .cycleFrame _ => none
  | .rollcall _ => none
  | .unknownKindFrame _ => none
  | .periodBoundary => none
  | .drvOkFall => none
  | .plannedChange _ => none
  | .deadTimeEnd _ => none
  | .trip _ => none
  | .assertionEpisodeEnd _ => none
  | .restoreTimerExpiry _ => none
  | .gapTimerExpiry => none
  | .checkCompletion => none
  | .drvOkRise => none
  | .tripInputAssertion _ => none
  | .powerLoss => none

/-- The engine's replay cache with the record of a request decided as new (R155, R156). -/
def Management.remember (m : Management) (seq : Byte) (k : ReqKind) (status : Status) (data : List Byte) :
    Management :=
  (m.makeRoom seq).insert ⟨seq, k, status, data⟩

/-! ## Slots of a cycle frame (R134 to R141) -/

/-- A slot of a CYCLE frame: its id and its data. -/
structure Slot where
  id : Byte
  data : List Byte
deriving DecidableEq, Repr

/-- A slot's bytes in the body (11.2). -/
def Slot.bytes (x : Slot) : List Byte := [x.id, BitVec.ofNat 8 x.data.length] ++ x.data

/-- What the slots of one frame leave so far: the acted-on list, the staged records, the mismatches and repeats
counted, the bytes that left. -/
structure SlotPass where
  acted : List Byte
  staged : List Setpoint
  mismatches : Nat
  repeats : Nat
  out : List Byte
deriving DecidableEq, Repr

/-- One slot passes while the state stays `s`: a repeat, an unbound id, an ignored consume slot, a slot of wrong length,
a consume slot or a produce slot (R136 to R141). -/
def State.passSlot (s : State) (target : Word) (p : SlotPass) (x : Slot) : SlotPass :=
  if x.id ∈ p.acted then { p with repeats := p.repeats + 1, out := p.out ++ x.bytes }
  else
    match s.slotOf x.id with
    | none => { p with out := p.out ++ x.bytes }
    | some e =>
      let q := { p with acted := p.acted ++ [x.id], out := p.out ++ x.bytes }
      match e.treatment s.node.state with
      | .untouched => q
      | .consume f c =>
        if x.data.length = 2 * c ∨ x.data.length = 2 * c + 2 then
          { q with staged := (slotRecords target f c x.data).foldl stage q.staged }
        else { q with mismatches := q.mismatches + 1 }
      | .produce k f c _ =>
        if x.data.length = k.size c then
          { q with out := p.out ++ [x.id, BitVec.ofNat 8 x.data.length] ++ s.content k f c
                            ++ x.data.drop (s.content k f c).length }
        else { q with mismatches := q.mismatches + 1 }

/-- All slots of a frame pass. -/
def State.passSlots (s : State) (target : Word) (l : List Slot) : SlotPass :=
  l.foldl (s.passSlot target) { acted := [], staged := [], mismatches := 0, repeats := 0, out := [] }

/-- The body of a CYCLE frame (11.2). -/
def cycleBody (target : Word) (slots : List Byte) (count : Nat) (padding : List Byte) : List Byte :=
  wordBytes target ++ [BitVec.ofNat 8 count] ++ slots ++ padding

/-! ## SAFE entry and gate changes -/

/-- What entry into SAFE leaves (R33, R59, R19, R100, R74), the fault record apart. -/
def State.safeFrom (s : State) (cause : SafeCause) : State :=
  { s with
    node := { state := .safe, cause := cause, start := none, loss := s.node.loss }
    timer := { s.timer with trim := none }
    queue := s.queue.map fun q => { q with records := [] }
    slots := { s.slots with staging := [] }
    bank := { s.bank with
      commit := none, shadow := if s.bank.commit.isSome then .editable else s.bank.shadow }
    mgmt := { s.mgmt with
      cache := s.mgmt.cache.map fun x =>
        if s.bank.commit.any (fun p => x.seq = p.seq) ∧ x.kind = .commit ∧ x.status = .pending then
          { x with status := .cancelled, data := [] }
        else x }
    gen := s.gen.map fun g =>
      { plan := [⟨0, .off⟩], closing := .off, output := .off, flag := none, echo := g.echo, cur := 0, dead := none }
    prot :=
      { inputs := s.prot.inputs.map fun x => { x with count := 0, blank := 0, blanked := false, episode := false }
        groups := s.prot.groups.map fun g =>
          { g with state := if g.state = .latched then .latched else .enabled, timer := 0 } } }

/-- From `old`, whose output states are those before the event, to `new`: every output state shows what R73 says,
every pin change has restarted the blanking of its group's inputs (R79, R86), and no more of the pattern
generator's outputs or of the inputs has changed. -/
structure State.Driven (old new : State) : Prop where
  outputs : ∀ c, (new.gen.get c).output = new.visible c
  inputs : ∀ i, new.prot.inputs.get i =
    { old.prot.inputs.get i with
      blank :=
        match (old.prot.inputs.get i).entry.group with
        | none => (old.prot.inputs.get i).blank
        | some g =>
          if old.node.state.live ∧ ∃ c, old.groupOf c = g ∧ (old.gen.get c).output ≠ (new.gen.get c).output then
            (old.prot.inputs.get i).entry.blanking.toNat
          else (old.prot.inputs.get i).blank }

/-! ## Period boundaries -/

/-- The node at the boundary that ends its period: the ticks until then have passed (log 4), the swap that is due is made,
and the timer stands at tick 0 of the next period, whose length is the P of the bank in force, with a pending trim added
and then at least 500 (R16, R23). The work of the blocks that act by period is still to do. -/
def State.nextPeriod (s : State) : State :=
  let w := (s.elapse s.timer.toBoundary).swapAt (s.timer.period + 1)
  { w with
    timer :=
      { tick := 0
        len := match s.timer.trim with
          | none => w.activeP
          | some d => max 500 (w.activeP + d).toNat
        period := s.timer.period + 1, trim := none, running := true, wrapDue := false } }

/-- The node state and the loss count at a boundary that is not lost: RUN from the start period on (R30, R35). -/
def State.nodeAtBoundary (s : State) : NodeController :=
  if s.node.state = .armed ∧ s.node.start = some (s.timer.period + 1) then
    { s.node with state := .run, start := none, loss := s.node.loss + 1 }
  else { s.node with loss := s.node.loss + 1 }

/-- From `old` to `new` the groups have done the work of a boundary: the CYCLE restore of R94 and the escalation window
of R98. -/
def State.GroupsTurned (old new : State) : Prop :=
  ∀ g, new.prot.groups.get g =
    { old.prot.groups.get g with
      state :=
        if (old.prot.groups.get g).state = .cycleOff
            ∧ ∀ i, (old.prot.inputs.get i).entry.group = some g → (old.prot.inputs.get i).entry.action = .cycle →
                (old.prot.inputs.get i).asserted = false then .enabled
        else (old.prot.groups.get g).state
      window :=
        if (old.prot.groups.get g).entry.w.toNat ≤ (old.prot.groups.get g).window + 1 then 0
        else (old.prot.groups.get g).window + 1
      esc :=
        if (old.prot.groups.get g).entry.w.toNat ≤ (old.prot.groups.get g).window + 1 then 0
        else (old.prot.groups.get g).esc }

/-- What each channel's selection is at the boundary of a node in RUN, from the bank of the new period (R52). -/
def State.selected (s : State) (c : Fin 6) : Selection :=
  (s.queue.get c).select s.nextPeriod.bank.activeImage c (s.timer.period + 1)

/-- The plan a channel leaves at the boundary: its last interval is in force (R64; log 4). -/
def State.closed (s : State) (c : Fin 6) : ChannelGen :=
  let u := s.elapse s.timer.toBoundary
  if s.node.state = .run then
    (u.gen.get c).finish (channelDead s.bank.activeImage c) u.timer.len
  else u.gen.get c

/-! ## Validation in the bytes of the image (R10 to R13, 11.5) -/

/-- A check of validation: the reason and the index it reports, and when it fails. -/
structure Check where
  reason : Reason
  index : Byte
  fails : Prop

/-- The checks of the header (R11). -/
def headerRules (m : Memory) : List Check :=
  let p := (m.readWord 0).toNat
  [⟨.periodRange, 0, p < 500 ∨ 60000 < p⟩,
   ⟨.holdRange, 0, 255 < (m.read 2).toNat⟩,
   ⟨.lossRange, 0, m.read 3 = 0 ∨ 255 < (m.read 3).toNat⟩,
   ⟨.reservedNonzero, 0, ∃ k, k < 10 ∧ m.read (6 + k) ≠ 0⟩]

/-- The checks of channel record `c` (R12), which stands at bytes 16 + 24c on. -/
def channelRules (m : Memory) (c : Nat) : List Check :=
  let p := (m.readWord 0).toNat
  let byte (i : Nat) := m.read (16 + 24 * c + i)
  let word (i : Nat) := (m.readWord (16 + 24 * c + i)).toNat
  let n := (byte 11).toNat
  let time (k : Nat) := word (12 + 3 * k)
  let edge (k : Nat) := byte (14 + 3 * k)
  let check (r : Reason) (fails : Prop) : Check := ⟨r, BitVec.ofNat 8 c, fails⟩
  [check .patternUnknown (4 < (byte 0).toNat),
   check .groupRange (1 < (byte 1).toNat),
   check .deadTimeRange (1000 < word 2),
   check .onTimeLimits (word 6 < word 4 ∨ p < word 6),
   check .phaseRange (p ≤ word 8),
   check .edgeCount (4 < n ∨ ∃ k, n ≤ k ∧ k < 4 ∧ (time k ≠ 0 ∨ edge k ≠ 0)),
   check .edgeOrder (∃ k, k + 1 < n ∧ k + 1 < 4 ∧ time (k + 1) ≤ time k),
   check .edgeRange (∃ k, k < n ∧ k < 4 ∧ p ≤ time k),
   check .edgeState (∃ k, k < n ∧ k < 4 ∧ 2 < (edge k).toNat)]

/-- Slot-map entry `e`, at bytes 160 + 4e on, as its four bytes spell it (11.5, R174). -/
def entryAt (m : Memory) (e : Nat) : SlotEntry :=
  { id := m.read (160 + 4 * e), kind := m.read (160 + 4 * e + 1), selector := m.read (160 + 4 * e + 2)
    first := (m.read (160 + 4 * e + 3)).toNat / 16, count := (m.read (160 + 4 * e + 3)).toNat % 16 }

/-- A used CONSUME entry (R4). -/
def SlotEntry.Consumes (e : SlotEntry) : Prop := e.id ≠ 0 ∧ e.kind = 0x01

/-- A used PRODUCE entry (R4). -/
def SlotEntry.Produces (e : SlotEntry) : Prop := e.id ≠ 0 ∧ e.kind = 0x02

/-- The checks of slot-map entry `k` (R13). -/
def slotRules (m : Memory) (k : Nat) : List Check :=
  let e := entryAt m k
  let check (r : Reason) (fails : Prop) : Check := ⟨r, BitVec.ofNat 8 k, fails⟩
  [check .reservedNonzero (e.id = 0 ∧ (e.kind ≠ 0 ∨ e.selector ≠ 0 ∨ e.first ≠ 0 ∨ e.count ≠ 0)),
   check .slotKind (e.id ≠ 0 ∧ e.kind ≠ 0x01 ∧ e.kind ≠ 0x02),
   check .slotDuplicate (e.id ≠ 0 ∧ ∃ j, j < k ∧ (entryAt m j).id = e.id),
   check .slotRange
    ((e.Consumes ∨ e.Produces ∧ e.selector = 0x03)
        ∧ (5 < e.first ∨ e.count = 0 ∨ 6 < e.count ∨ 6 < e.first + e.count)
      ∨ e.Produces ∧ e.selector ≠ 0x03 ∧ (e.first ≠ 0 ∨ e.count ≠ 0)),
   check .slotOverlap
    (e.Consumes ∧ ∃ j, j < k ∧ (entryAt m j).Consumes
      ∧ (entryAt m j).first < e.first + e.count ∧ e.first < (entryAt m j).first + (entryAt m j).count),
   check .selectorUnknown
    (e.Consumes ∧ e.selector ≠ 0
      ∨ e.Produces ∧ e.selector ≠ 0x01 ∧ e.selector ≠ 0x02 ∧ e.selector ≠ 0x03)]

/-- The binding test of channel `c` (R13). -/
def bindingRule (m : Memory) (c : Nat) : Check :=
  ⟨.unboundChannel, BitVec.ofNat 8 c,
    (m.read (16 + 24 * c) = 0x01 ∨ m.read (16 + 24 * c) = 0x02 ∨ m.read (16 + 24 * c) = 0x03)
      ∧ ∀ e, e < 16 → (entryAt m e).Consumes →
          ¬ ((entryAt m e).first ≤ c ∧ c < (entryAt m e).first + (entryAt m e).count)⟩

/-- Every check of an image in the order of R10. -/
def imageChecks (m : Memory) : List Check :=
  headerRules m ++ (List.range 6).flatMap (channelRules m) ++ (List.range 16).flatMap (slotRules m)
    ++ (List.range 6).map (bindingRule m)

/-! ## Events that are due (R23, R70, R72, R87, R95, R169, R171) -/

/-- The command is an event of the node's own timers that is due in the present tick: the tick after L − 1 has come; in RUN
a plan's next interval begins or a dead time ends, and its run does not end with it; an unblanked tick has completed the
filter of an ASSERTED input with a clear episode flag; a restore timer, the gap timer or the check has run out. -/
def State.Due (s : State) : Instr → Prop
  | .periodBoundary => s.timer.running = true ∧ s.timer.wrapDue = true
  | .plannedChange c =>
    s.node.state = .run
      ∧ ∃ x, (s.gen.get c).plan[(s.gen.get c).cur + 1]? = some x ∧ x.first ≤ s.timer.tick
  | .deadTimeEnd c =>
    s.node.state = .run ∧ (s.gen.get c).dead = some 0 ∧ s.timer.wrapDue = false
      ∧ ∀ x, (s.gen.get c).plan[(s.gen.get c).cur + 1]? = some x → s.timer.tick < x.first
  | .trip i =>
    (s.node.state = .armed ∨ s.node.state = .run) ∧ (s.prot.inputs.get i).entry.group ≠ none
      ∧ (s.prot.inputs.get i).asserted = true ∧ (s.prot.inputs.get i).episode = false
      ∧ (s.prot.inputs.get i).blanked = false
      ∧ (s.prot.inputs.get i).count = (s.prot.inputs.get i).entry.filter.toNat
  | .restoreTimerExpiry g =>
    (s.node.state = .armed ∨ s.node.state = .run) ∧ (s.prot.groups.get g).state = .timedOff
      ∧ (s.prot.groups.get g).timer = 0
  | .gapTimerExpiry => s.load.state = .receiving ∧ s.load.gap = 0
  | .checkCompletion => s.load.state = .checking ∧ s.load.checkLeft = 0
  | .unknownRequest _ _ => False
  | .identify _ => False
  | .readEntry _ => False
  | .writeEntryBank _ _ => False
  | .writeEntryTripInput _ => False
  | .writeEntryGroup _ => False
  | .writeEntryNode _ => False
  | .copyActive _ => False
  | .commit _ => False
  | .arm _ => False
  | .align _ => False
  | .trim _ => False
  | .stop _ => False
  | .clear _ => False
  | .restart _ => False
  | .tripAck _ => False
  | .faultRead _ => False
  | .faultPop _ => False
  | .countersRead _ => False
  | .countersClear _ => False
  | .loadBegin _ => False
  | .loadData _ => False
  | .loadEnd _ => False
  | .loadCancel _ => False
  | .powerOn => False
  | .resetNAsserted => False
  | .resetNReleased => False
  | .invalidSymbol => False
  | .cycleFrame _ => False
  | .rollcall _ => False
  | .unknownKindFrame _ => False
  | .drvOkFall => False
  | .assertionEpisodeEnd _ => False
  | .drvOkRise => False
  | .tripInputAssertion _ => False
  | .powerLoss => False

/-! ## Values at power-on (R40) -/

/-- The values every block holds after power-on and on RESET_N (R21, R22, R26, R42, R63, R82 to R84, R89, R106, R112,
R127, R128, R132, R146, R165), the levels of the input pins, the bypass and the symbols of the delay apart. -/
structure State.PowerOnValues (s : State) : Prop where
  receiver : s.relay.rx = .idle ∧ s.relay.frame = .clear
  address : s.roll.address = 0 ∧ s.roll.staged = none
  slots : s.slots.walker = .idle ∧ s.slots.acted = [] ∧ s.slots.cur = none ∧ s.slots.staging = []
  queues : ∀ c, s.queue.get c = { records := [], lastOn := 0, lastPhase := 0, hold := 0, holdOff := false }
  images : ∀ a, s.bank.imgA.read a = 0 ∧ s.bank.imgB.read a = 0
  roles : s.bank.active = .a ∧ s.bank.cond = .empty ∧ s.bank.shadow = .editable ∧ s.bank.commit = none
  timer : s.timer = { tick := 0, len := 500, period := 0, trim := none, running := false, wrapDue := false }
  node : s.node = { state := .unaddressed, cause := .none, start := none, loss := 0 }
  gates : ∀ c, s.gen.get c =
    { plan := [⟨0, .off⟩], closing := .off, output := .off, flag := none, echo := 0xFFFF, cur := 0, dead := none }
  inputs : ∀ i, s.prot.inputs.get i =
    { entry := { polarity := .activeLow, group := none, filter := 0, blanking := 0, action := .latch, delay := 1 }
      pin := (s.prot.inputs.get i).pin, count := 0, blank := 0, blanked := false, episode := false }
  groups : ∀ g, s.prot.groups.get g = { entry := ⟨0, 1⟩, state := .enabled, timer := 0, esc := 0, window := 0 }
  log : s.log = { records := [], next := 0, dropped := 0 }
  counters : ∀ id, s.counters.get id = 0
  engine : s.mgmt.cache = [] ∧ s.mgmt.comp = 0 ∧ s.mgmt.frame = .clear
  job : s.load =
    { state := .idle, first := 0, count := 0, next := 0, checksum := 0, written := 0, prior := .editable, gap := 0
      checkSeq := none, checkLeft := 0 }

/-! ## Invariants -/

/-- Both images are in canonical form (log 1), and the delay line holds its 20 symbols (R117). -/
structure State.StorageOk (s : State) : Prop where
  imgA : s.bank.imgA.wf = true
  imgB : s.bank.imgB.wf = true
  delay : s.relay.line.length = Config.forwardDelay

/-- Every gate shows what R73 says, so no gate is active outside RUN or with its group not ENABLED; each channel stands in
an interval of its plan, and outside RUN the plan is all-OFF (R63, R74). -/
structure State.GatesOk (s : State) : Prop where
  shown : ∀ c, (s.gen.get c).output = s.visible c
  place : ∀ c, (s.gen.get c).cur < (s.gen.get c).plan.length
  rest : s.node.state ≠ .run → ∀ c,
    (s.gen.get c).plan = [⟨0, .off⟩] ∧ (s.gen.get c).closing = .off ∧ (s.gen.get c).flag = none
      ∧ (s.gen.get c).cur = 0 ∧ (s.gen.get c).dead = none

/-- The law of the address (R128): it is 0 exactly in UNADDRESSED, and no management frame is in work there. -/
structure State.AddressOk (s : State) : Prop where
  zero : s.roll.address = 0 ↔ s.node.state = .unaddressed
  range : s.roll.address ≠ 255
  staged : ∀ a, s.roll.staged = some a → a ≠ 0 ∧ a ≠ 255
  parser : s.node.state = .unaddressed → s.relay.frame.parser ≠ .mgmt

/-- Counters of 16 bits (R112), and the law of the Fault Log (R106, R107, R110). -/
structure State.RecordsOk (s : State) : Prop where
  counters : ∀ id, s.counters.get id ≤ 65535
  size : s.log.records.length ≤ 8
  dropped : s.log.dropped ≤ 255
  empty : s.log.records = [] → s.log.dropped = 0
  numbers : ∀ k r, s.log.records[k]? = some r →
    r.number = s.log.next - BitVec.ofNat 16 (s.log.records.length - k)

/-- The laws of the groups and inputs, and the ranges of their values (R82 to R85, R89, R100, R101). -/
structure State.GroupsOk (s : State) : Prop where
  filter : ∀ i, (s.prot.inputs.get i).count ≤ (s.prot.inputs.get i).entry.filter.toNat
  blanking : ∀ i, (s.prot.inputs.get i).entry.blanking.toNat ≤ 1023 ∧ (s.prot.inputs.get i).blank ≤ 1023
  delay : ∀ i, (s.prot.inputs.get i).entry.delay ≠ 0
  counts : ∀ g, (s.prot.groups.get g).entry.w ≠ 0 ∧ (s.prot.groups.get g).esc ≤ 255
    ∧ (s.prot.groups.get g).window ≤ 255 ∧ (s.prot.groups.get g).timer ≤ 65535
  off : ∀ g, (s.prot.groups.get g).state = .cycleOff ∨ (s.prot.groups.get g).state = .timedOff →
    s.node.state = .armed ∨ s.node.state = .run
  timer : ∀ g, (s.prot.groups.get g).state ≠ .timedOff → (s.prot.groups.get g).timer = 0
  idle : s.node.state = .unaddressed ∨ s.node.state = .config → ∀ g, (s.prot.groups.get g).state = .enabled
  inputs : ∀ i, (s.prot.inputs.get i).detecting s.node.state = false →
    (s.prot.inputs.get i).count = 0 ∧ (s.prot.inputs.get i).blank = 0 ∧ (s.prot.inputs.get i).blanked = false
      ∧ (s.prot.inputs.get i).episode = false

/-- The laws that tie the timer, the node state, the banks, the load job and the replay cache together (R6, R18, R22,
R26, R37, R155, R165). -/
structure State.ControlOk (s : State) : Prop where
  running : s.timer.running = true ↔ s.node.state = .armed ∨ s.node.state = .run ∨ s.node.state = .safe
  stopped : s.timer.running = false → s.timer.tick = 0 ∧ s.timer.trim = none
  tick : s.timer.tick < s.timer.len
  len : 500 ≤ s.timer.len
  due : s.timer.wrapDue = true → s.timer.running = true ∧ s.timer.tick + 1 = s.timer.len
  trim : s.timer.trim ≠ none → s.node.state.live = true
  start : s.node.start ≠ none ↔ s.node.state = .armed
  cause : s.node.cause = .none ↔ s.node.state ≠ .safe
  valid : s.node.state = .armed ∨ s.node.state = .run ∨ s.node.state = .safe → s.bank.cond = .valid
  active : s.bank.cond = .valid → validate s.bank.activeImage = none
  frozen : s.bank.commit ≠ none ↔ s.bank.shadow = .frozen
  commit : s.bank.commit ≠ none → s.node.state.live = true ∧ validate s.bank.shadowImage = none
  loading : s.load.state = .receiving ↔ s.bank.shadow = .loading
  checking : s.load.state = .checking ↔ s.bank.shadow = .checking
  prior : s.load.state ≠ .idle → s.load.prior = .editable ∨ s.load.prior = .broken
  job : s.load.state ≠ .idle →
    s.load.next = s.load.first + s.load.written ∧ s.load.written ≤ s.load.count ∧ s.load.first + s.load.count ≤ 7
  cacheSize : s.mgmt.cache.length ≤ 4
  cacheSeqs : (s.mgmt.cache.map CacheRecord.seq).Nodup
  cacheData : ∀ x ∈ s.mgmt.cache, x.data.length ≤ largestData x.kind []
  cachePending : ∀ x ∈ s.mgmt.cache, x.status = .pending →
    (x.kind = .commit ∧ ∃ p, s.bank.commit = some p ∧ p.seq = x.seq)
      ∨ (x.kind = .loadEnd ∧ s.load.state = .checking ∧ s.load.checkSeq = some x.seq)

/-- The laws of the queues and the staging area (R43, R44, R54, R59). -/
structure State.QueuesOk (s : State) : Prop where
  size : ∀ c, (s.queue.get c).records.length ≤ 4
  ahead : ∀ c, ∀ r ∈ (s.queue.get c).records, 1 ≤ distance s.timer.period r.target ∧ distance s.timer.period r.target ≤ 15
  order : ∀ c, (s.queue.get c).records.Pairwise fun a b =>
    distance s.timer.period a.target < distance s.timer.period b.target
  empty : s.node.state.live = false → ∀ c, (s.queue.get c).records = []
  hold : ∀ c, (s.queue.get c).hold ≤ 255
  staging : (s.slots.staging.map Setpoint.chan).Nodup

end Sys2Proof.Machine
end

