-- ==== Sys2Proof/Certificates/Slice0/Obligations.lean ====
section
/-! DEFINITION. The statements for the provers. In a statement about a request, `Answers i k args r s st flag data t`
says that the command answers a next state equal to `t` in every block but the relay, the engine's frame state and the
one good frame counted; so `t` is also the frame. -/

open Sys2Proof Sys2Proof.Machine

/-! ## The machine, power and reset -/

/-- A step with a command in front of the queue is that command on the state with the queue's rest. -/
def Obligations.StepRunsTheFrontCommand : Prop :=
  ∀ (c : Instr) (rest : List Instr) (s : State), step { s with pending := c :: rest } = exec c { s with pending := rest }

/-- The reset state holds every block's power-on values (R40) and meets every invariant. -/
def Obligations.ResetHoldsPowerOnValues : Prop :=
  State.reset.PowerOnValues ∧ State.reset.StorageOk ∧ State.reset.GatesOk ∧ State.reset.AddressOk
    ∧ State.reset.RecordsOk ∧ State.reset.GroupsOk ∧ State.reset.ControlOk ∧ State.reset.QueuesOk

/-- POWER_ON, RESET_N_ASSERTED and POWER_LOSS take every block to its power-on values; the levels of the trip pins and of
DRV_OK stay, the bypass is active exactly while RESET_N is low (during a power loss it is not in use: log 9), the
symbols of the delay leave as they are in reset. RESET_N_RELEASED only ends the bypass. -/
def Obligations.PowerAndResetGivePowerOnValues : Prop :=
  (∀ s : State, ∃ t, exec .powerOn s = .next t ∧ t.PowerOnValues ∧ t.pins = { s.pins with supply := true }
      ∧ t.relay.bypass = !s.pins.resetN ∧ (∀ i, (t.prot.inputs.get i).pin = (s.prot.inputs.get i).pin)
      ∧ t.pending = s.pending ∧ t.freeCount = s.freeCount)
  ∧ (∀ s : State, ∃ t, exec .resetNAsserted s = .next t ∧ t.PowerOnValues ∧ t.pins = { s.pins with resetN := false }
      ∧ t.relay.bypass = true ∧ t.relay.line = s.relay.line
      ∧ (∀ i, (t.prot.inputs.get i).pin = (s.prot.inputs.get i).pin)
      ∧ t.pending = s.pending ∧ t.freeCount = s.freeCount)
  ∧ (∀ s : State, ∃ t, exec .powerLoss s = .next t ∧ t.PowerOnValues ∧ t.pins = { s.pins with supply := false }
      ∧ (∀ i, (t.prot.inputs.get i).pin = (s.prot.inputs.get i).pin)
      ∧ t.pending = s.pending ∧ t.freeCount = s.freeCount)
  ∧ (∀ s : State, s.pins.resetN = false →
      exec .resetNReleased s
        = .next { s with pins := { s.pins with resetN := true }, relay := { s.relay with bypass := false } })

/-! ## The link -/

/-- An invalid symbol between frames and within a frame (R116). -/
def Obligations.InvalidSymbolCountedAndForwarded : Prop :=
  (∀ s : State, s.pins.supply = true → s.relay.bypass = false → s.relay.rx = .idle →
    ∃ relay, exec .invalidSymbol s = .next { s with relay := relay, counters := s.counters.add 1 .symbolErrors }
      ∧ relay.sent ++ relay.line = s.relay.line ++ [.idle] ∧ relay.rx = .idle ∧ relay.frame = s.relay.frame
      ∧ relay.bypass = false)
  ∧ (∀ s : State, s.pins.supply = true → s.relay.bypass = false → s.relay.rx = .inFrame →
    ∃ t, exec .invalidSymbol s = .next t
      ∧ t.counters.get .symbolErrors = min 65535 (s.counters.get .symbolErrors + 1)
      ∧ t.relay.rx = .inFrame ∧ t.relay.frame.symErr = true ∧ t.relay.frame.pos = min (s.relay.frame.pos + 1) 1026
      ∧ (s.relay.frame.pos ≠ 0 → s.relay.frame.parser = .none →
        t = { s with relay := t.relay, counters := s.counters.add 1 .symbolErrors }
          ∧ t.relay.sent ++ t.relay.line = s.relay.line ++ [.byte 0]))

/-- Frames forwarded untouched: unknown kinds, CYCLE in UNADDRESSED and CONFIG, ROLLCALL in ARMED, RUN and SAFE, every
request in UNADDRESSED (R117, R123, R125); and a request whose destination is neither the node's address nor 255, which
leaves as it came and is neither executed nor counted but as a good frame (R147). -/
def Obligations.UntouchedFramesPassUnchanged : Prop :=
  (∀ (s : State) (k : Byte) (body : List Byte) (i : Instr), s.Ready → body.length ≤ 1020 →
    (i = .unknownKindFrame (frameSymbols k body) ∧ k ≠ 0x01 ∧ k ≠ 0x02 ∧ k ≠ 0x03
      ∨ i = .cycleFrame (frameSymbols k body) ∧ k = 0x01 ∧ 3 ≤ body.length
          ∧ (s.node.state = .unaddressed ∨ s.node.state = .config)
      ∨ i = .rollcall (frameSymbols k body) ∧ k = 0x03 ∧ 3 ≤ body.length
          ∧ (s.node.state = .armed ∨ s.node.state = .run ∨ s.node.state = .safe)
      ∨ k = 0x02 ∧ s.node.state = .unaddressed
          ∧ ∃ kind args r, carried i = some (kind, args, r) ∧ r.damage = [] ∧ body = requestBody r kind args) →
    ∃ relay, exec i s = .next { s with relay := relay, counters := s.counters.add 1 .framesGood }
      ∧ s.relay.Passed relay (frameSymbols k body))
  ∧ (∀ (s : State) (i : Instr) (kind : Byte) (args : List Byte) (r : Request), carried i = some (kind, args, r) →
    s.Ready → s.node.state ≠ .unaddressed → Intact r args → r.dest ≠ s.roll.address → r.dest ≠ 255 →
    Unanswered i kind args r s s)

/-- A bad frame of a kind the node does not know leaves with its bytes unchanged and a poisoned trailer (R121 to
R124). -/
def Obligations.BadFrameIsPoisoned : Prop :=
  ∀ (s : State) (l : List Byte) (a b : Byte), s.Ready → l.length + 2 ≤ 1025 → (l ++ [a, b]).head? ≠ some 0x01 →
    (l ++ [a, b]).head? ≠ some 0x02 → (l ++ [a, b]).head? ≠ some 0x03 →
    ¬ (3 ≤ l.length ∧ l.length = 3 + (wordAt l 1).toNat ∧ wordOf a b = crc16 l) →
    ∃ relay,
      exec (.unknownKindFrame ([.frameStart] ++ (l ++ [a, b]).map Symbol.byte ++ [.frameEnd])) s
        = .next { s with relay := relay, counters := s.counters.add 1 .framesBad }
      ∧ s.relay.Passed relay
          ([.frameStart] ++ (l ++ wordBytes (~~~ crc16 l)).map Symbol.byte ++ [.frameEnd])

/-- A frame cut by an IDLE or by a FRAME_START: counted bad, the staged records and address discarded, no trailer added;
after a FRAME_START the next frame is in progress, with a cleared frame check state (R119, R120). -/
def Obligations.CutFrameDiscardsStagedValues : Prop :=
  ∀ (s : State) (x : Symbol), s.pins.supply = true → s.relay.bypass = false → s.relay.rx = .inFrame →
    x = .idle ∨ x = .frameStart →
    ∃ t, exec (.cycleFrame [x]) s = .next t
      ∧ t = { s with relay := t.relay, slots := t.slots, roll := t.roll, counters := s.counters.add 1 .framesBad }
      ∧ t.relay.rx = (if x = .frameStart then .inFrame else .idle) ∧ t.relay.frame = .clear
      ∧ t.relay.bypass = false ∧ t.relay.sent ++ t.relay.line = s.relay.line ++ [x]
      ∧ (s.relay.frame.parser = .slot → t.slots.staging = [] ∧ t.slots.walker = .idle ∧ t.roll = s.roll)
      ∧ (s.relay.frame.parser = .roll → t.roll.staged = none ∧ t.roll.address = s.roll.address ∧ t.slots = s.slots)
      ∧ (s.relay.frame.parser = .none ∨ s.relay.frame.parser = .mgmt → t.roll = s.roll ∧ t.slots = s.slots)

/-- With the bypass active every symbol is copied and nothing else happens, whatever command brings it (R118). -/
def Obligations.BypassCopiesEverySymbol : Prop :=
  ∀ (s : State) (l : List Symbol) (i : Instr), s.pins.supply = true → s.relay.bypass = true →
    (i = .cycleFrame l ∨ i = .rollcall l ∨ i = .unknownKindFrame l ∨ i = .invalidSymbol ∧ l = [.invalid]
      ∨ ∃ kind args r, carried i = some (kind, args, r) ∧ l = requestSymbols r kind args) →
    ∃ relay, exec i s = .next { s with relay := relay }
      ∧ relay.sent ++ relay.line = s.relay.line ++ l ∧ relay.line.length = s.relay.line.length
      ∧ relay.rx = s.relay.rx ∧ relay.frame = s.relay.frame ∧ relay.bypass = true

/-- A good ROLLCALL frame in UNADDRESSED or CONFIG addresses the node and carries its identity on (R129, R130). -/
def Obligations.RollcallAddressesTheNode : Prop :=
  ∀ (s : State) (n base cap : Byte) (area padding : List Byte), s.Ready →
    (s.node.state = .unaddressed ∨ s.node.state = .config) → n ≠ 0 → n ≠ 255 → cap.toNat ≤ 32 →
    area.length = 8 * cap.toNat → 3 + area.length + padding.length ≤ 1020 →
    ∃ relay,
      exec (.rollcall (frameSymbols kindRollcall ([n, base, cap] ++ area ++ padding))) s = .next
        { s with
          relay := relay
          roll := { address := n, staged := none, next := none, base := 0, entry := none }
          node := { s.node with state := .config }
          counters := s.counters.add 1 .framesGood }
      ∧ s.relay.Passed relay (frameSymbols kindRollcall ([n + 1, base, cap]
          ++ (if base.toNat ≤ n.toNat ∧ n.toNat - base.toNat < cap.toNat then
                area.take (8 * (n.toNat - base.toNat)) ++ identityEntry s.node.state
                  ++ area.drop (8 * (n.toNat - base.toNat) + 8)
              else area)
          ++ padding))

/-- A ROLLCALL frame with next address 0 or 255 passes untouched, and one with a bad trailer leaves address and node
state as they were (R129, R130). That the first is then good whatever its capacity and extent, also with a capacity above
32 or entries past the body, is the model's choice, which no rule states: the marks of R122 come without a condition
(log 29, DESIGN CHOICE). -/
def Obligations.RollcallWithoutAdoption : Prop :=
  (∀ (s : State) (n : Byte) (rest : List Byte), s.Ready → (s.node.state = .unaddressed ∨ s.node.state = .config) →
    n = 0 ∨ n = 255 → 2 ≤ rest.length → 1 + rest.length ≤ 1020 →
    ∃ relay,
      exec (.rollcall (frameSymbols kindRollcall (n :: rest))) s = .next
        { s with
          relay := relay
          roll := { address := s.roll.address, staged := none, next := none, base := 0, entry := none }
          counters := s.counters.add 1 .framesGood }
      ∧ s.relay.Passed relay (frameSymbols kindRollcall (n :: rest)))
  ∧ (∀ (s : State) (body : List Byte) (a b : Byte), s.Ready →
    (s.node.state = .unaddressed ∨ s.node.state = .config) → 3 ≤ body.length → body.length ≤ 1020 →
    wordOf a b ≠ crc16 (frameBytes kindRollcall body) →
    ∃ t,
      exec (.rollcall ([.frameStart] ++ (frameBytes kindRollcall body ++ [a, b]).map Symbol.byte ++ [.frameEnd])) s
        = .next t
      ∧ t = { s with relay := t.relay, roll := t.roll, counters := s.counters.add 1 .framesBad }
      ∧ t.roll.address = s.roll.address ∧ t.roll.staged = none)

/-! ## Cycle frames -/

/-- The byte-by-byte walk over a CYCLE frame does what its slots say one by one: the bytes that leave, the counts, the
records handed over, the good-cycle-frame event (R134 to R141, R44, R45, R34). With a wrong trailer the frame is counted
bad, its staged records are discarded, queues and loss count stay, and it leaves with its slots as written and a poisoned
trailer (R44, R124, R140, R141). Then the terms in the spec's bytes: the slot map (R4, R136, R174), the treatment of a
bound slot (R136), the records of a consume slot (R44, R139), the contents (R141 to R144). -/
def Obligations.CycleFrameIsItsSlots : Prop :=
  (∀ (s : State) (target : Word) (l : List Slot) (padding : List Byte), s.Ready →
    (s.node.state = .armed ∨ s.node.state = .run ∨ s.node.state = .safe) → s.slots.staging = [] →
    (∀ id, s.counters.get id ≤ 65535) → l.length ≤ 255 → (∀ x ∈ l, x.data.length ≤ 64) →
    let body := cycleBody target (l.flatMap Slot.bytes) l.length padding
    let pass := s.passSlots target l
    let left := cycleBody target pass.out l.length padding
    let noted := (s.counters.add pass.mismatches .slotMismatch).add pass.repeats .slotRepeat
    body.length ≤ 1020 →
    (∃ relay slots,
      exec (.cycleFrame (frameSymbols kindCycle body)) s = .next
        { (State.takeArrival { s with counters := noted.add 1 .framesGood } pass.staged) with
          relay := relay
          slots := slots
          node := if s.node.state = .safe then s.node else { s.node with loss := 0 } }
      ∧ s.relay.Passed relay (frameSymbols kindCycle left)
      ∧ slots.staging = [] ∧ slots.walker = .idle ∧ slots.cur = none)
    ∧ (∀ a b, wordOf a b ≠ crc16 (frameBytes kindCycle body) →
      ∃ relay slots,
        exec (.cycleFrame ([.frameStart] ++ (frameBytes kindCycle body ++ [a, b]).map Symbol.byte ++ [.frameEnd])) s
          = .next { s with relay := relay, slots := slots, counters := noted.add 1 .framesBad }
        ∧ s.relay.Passed relay
            ([.frameStart]
              ++ (frameBytes kindCycle left ++ wordBytes (~~~ crc16 (frameBytes kindCycle left))).map Symbol.byte
              ++ [.frameEnd])
        ∧ slots.staging = [] ∧ slots.walker = .idle ∧ slots.cur = none))
  ∧ (∀ (s : State) (id : Byte),
      (s.bank.cond = .empty ∨ id = 0 → s.slotOf id = none)
      ∧ (s.bank.cond = .valid → id ≠ 0 →
          ((∀ k, k < 16 → s.bank.activeImage.read (160 + 4 * k) ≠ id) → s.slotOf id = none)
          ∧ (∀ k, k < 16 → s.bank.activeImage.read (160 + 4 * k) = id →
              (∀ j, j < k → s.bank.activeImage.read (160 + 4 * j) ≠ id) →
              s.slotOf id = some
                { id := id, kind := s.bank.activeImage.read (160 + 4 * k + 1)
                  selector := s.bank.activeImage.read (160 + 4 * k + 2)
                  first := (s.bank.activeImage.read (160 + 4 * k + 3)).toNat / 16
                  count := (s.bank.activeImage.read (160 + 4 * k + 3)).toNat % 16 })))
  ∧ (∀ (e : SlotEntry) (n : NodeState),
      (e.kind = 0x01 → n = .armed ∨ n = .run → e.treatment n = .consume e.first e.count)
      ∧ (e.kind = 0x01 → n = .safe → e.treatment n = .untouched)
      ∧ (e.kind = 0x02 → e.selector = 0x01 → e.treatment n = .produce .state e.first e.count [])
      ∧ (e.kind = 0x02 → e.selector = 0x02 → e.treatment n = .produce .trips e.first e.count [])
      ∧ (e.kind = 0x02 → e.selector = 0x03 → e.treatment n = .produce .echo e.first e.count []))
  ∧ (∀ (target : Word) (first count : Nat) (data : List Byte), first + count ≤ 6 →
      data.length = 2 * count ∨ data.length = 2 * count + 2 →
      slotRecords target first count data =
        (channels.filter fun c => first ≤ c.val ∧ c.val < first + count).map fun c =>
          { chan := c, target := target, onTime := wordAt data (2 * (c.val - first))
            phase := if data.length = 2 * count then none else some (wordAt data (2 * count)) })
  ∧ (∀ (l : List Setpoint) (r x : Setpoint), x ∈ stage l r ↔ x = r ∨ x ∈ l ∧ x.chan ≠ r.chan)
  ∧ (∀ (s : State) (first count : Nat),
      s.content .state first count =
        [s.node.state.code, s.node.cause.code, (s.prot.groups.get 0).state.code, (s.prot.groups.get 1).state.code]
          ++ wordBytes s.timer.period ++ [s.bank.activeImage.read 4, s.bank.activeImage.read 5]
          ++ [BitVec.ofNat 8 s.log.records.length, s.bank.shadow.code]
      ∧ (∃ levels : Byte, (∀ i : Fin 4, levels.getLsbD i.val = (s.prot.inputs.get i).asserted) ∧ levels.toNat < 16
          ∧ s.content .trips first count =
              [levels] ++ wordBytes (BitVec.ofNat 16 (s.counters.get .cycleTripsG0))
                ++ wordBytes (BitVec.ofNat 16 (s.counters.get .cycleTripsG1)) ++ [BitVec.ofNat 8 s.log.records.length])
      ∧ (first + count ≤ 6 → s.content .echo first count =
          (channels.filter fun c => first ≤ c.val ∧ c.val < first + count).flatMap fun c =>
            wordBytes (s.gen.get c).echo))
  ∧ (∀ count, Content.state.size count = 10 ∧ Content.trips.size count = 6 ∧ Content.echo.size count = 2 * count)
  ∧ [GroupState.enabled, .cycleOff, .timedOff, .latched].map GroupState.code = [0, 1, 2, 3]

/-- The classification of an arrival: nothing outside ARMED and RUN; else LATE, FAR, replaced, overrun or inserted, one
record after the other (R45 to R49). -/
def Obligations.ArrivalIsClassified : Prop :=
  (∀ (s : State) (l : List Setpoint), s.node.state ≠ .armed → s.node.state ≠ .run → s.takeArrival l = s)
  ∧ (∀ (s : State) (r : Setpoint) (l : List Setpoint), s.node.state = .armed ∨ s.node.state = .run →
      s.takeArrival (r :: l) = (s.takeArrival [r]).takeArrival l)
  ∧ (∀ (s : State) (r : Setpoint), s.node.state = .armed ∨ s.node.state = .run →
      ∃ t, s.takeArrival [r] = t ∧ t = { s with queue := t.queue, counters := t.counters }
      ∧ (∀ c, c ≠ r.chan → t.queue.get c = s.queue.get c)
      ∧ t.queue.get r.chan = { s.queue.get r.chan with records := (t.queue.get r.chan).records }
      ∧ let d := distance s.timer.period r.target
        let old := (s.queue.get r.chan).records
        let new := (t.queue.get r.chan).records
        (d = 0 ∨ 32768 ≤ d → new = old ∧ t.counters = s.counters.add 1 .spLate)
        ∧ (16 ≤ d ∧ d ≤ 32767 → new = old ∧ t.counters = s.counters.add 1 .spFar)
        ∧ (1 ≤ d ∧ d ≤ 15 → (∃ x ∈ old, x.target = r.target) →
            new = old.map (fun x => if x.target = r.target then r else x)
              ∧ t.counters = s.counters.add 1 .spReplaced)
        ∧ (1 ≤ d ∧ d ≤ 15 → (∀ x ∈ old, x.target ≠ r.target) → 4 ≤ old.length →
            new = old ∧ t.counters = s.counters.add 1 .spOverrun)
        ∧ (1 ≤ d ∧ d ≤ 15 → (∀ x ∈ old, x.target ≠ r.target) → old.length < 4 →
            t.counters = s.counters ∧ ∃ a b, old = a ++ b ∧ new = a ++ r :: b
              ∧ (∀ x ∈ a, distance s.timer.period x.target ≤ d)
              ∧ (∀ x ∈ b.head?, d < distance s.timer.period x.target)))

/-! ## Requests that read -/

/-- IDENTIFY answers the fifteen bytes of R161 and changes nothing; the codes of node state, safe cause and shadow state are
those of section 11.8. -/
def Obligations.IdentifyReplies : Prop :=
  (∀ (s : State) (r : Request), s.Takes .identify r.args r →
    Answers (.identify r) 0x01 r.args r s .done false
      ([0x66, 0x10, 0x02, 0x06, 0x04, 0x02, 0x07, s.node.state.code, s.roll.address, s.node.cause.code]
        ++ wordBytes s.timer.period
        ++ wordBytes (if s.bank.cond = .empty then 0 else s.bank.activeImage.readWord 4)
        ++ [s.bank.shadow.code])
      s)
  ∧ [NodeState.unaddressed, .config, .armed, .run, .safe].map NodeState.code = [0, 1, 2, 3, 4]
  ∧ [SafeCause.none, .stop, .linkLoss, .supplyLoss, .holdLimit].map SafeCause.code = [0, 1, 2, 3, 4]
  ∧ [ShadowState.editable, .loading, .checking, .frozen, .broken].map ShadowState.code = [0, 1, 2, 3, 4]

/-- READ ENTRY answers the bytes of the entry as stored, from the image its role names for a bank table, and changes
nothing; an unknown table, an index out of range or an unknown role of a bank table is INVALID (R8, R162, R163). -/
def Obligations.ReadEntryReplies : Prop :=
  ∀ (s : State) (r : Request) (table index role : Byte), r.args = [table, index, role] →
    s.Takes .readEntry r.args r →
    let reply (st : Status) (data : List Byte) := Answers (.readEntry r) 0x02 r.args r s st false data s
    (∀ m, (role = 0x01 ∧ m = s.bank.activeImage ∨ role = 0x02 ∧ m = s.bank.shadowImage) →
      (table = 0x01 → index = 0 → reply .done ((List.range 16).map fun k => m.read k))
      ∧ (table = 0x02 → index.toNat ≤ 5 →
          reply .done ((List.range 24).map fun k => m.read (16 + 24 * index.toNat + k)))
      ∧ (table = 0x03 → index.toNat ≤ 15 →
          reply .done ((List.range 4).map fun k => m.read (160 + 4 * index.toNat + k))))
    ∧ (∀ i : Fin 4, table = 0x04 → index.toNat = i.val → reply .done (s.prot.inputs.get i).entry.encode)
    ∧ (∀ g : Fin 2, table = 0x05 → index.toNat = g.val →
        reply .done [(s.prot.groups.get g).entry.e, (s.prot.groups.get g).entry.w])
    ∧ (table = 0x06 → index = 0 → reply .done (wordBytes s.mgmt.comp))
    ∧ (table = 0 ∨ 6 < table.toNat ∨ table = 0x01 ∧ index ≠ 0 ∨ table = 0x02 ∧ 5 < index.toNat
        ∨ table = 0x03 ∧ 15 < index.toNat ∨ table = 0x04 ∧ 3 < index.toNat ∨ table = 0x05 ∧ 1 < index.toNat
        ∨ table = 0x06 ∧ index ≠ 0
        ∨ (table = 0x01 ∨ table = 0x02 ∨ table = 0x03) ∧ role ≠ 0x01 ∧ role ≠ 0x02 →
      reply .invalid [])

/-- FAULT READ answers the count, the dropped count and the oldest record; COUNTERS READ the sixteen counters in index
order; both change nothing (R109, R113). -/
def Obligations.RecordReadsReply : Prop :=
  (∀ (s : State) (r : Request), s.Takes .faultRead r.args r →
    (s.log.records = [] →
      Answers (.faultRead r) 0x0D r.args r s .done false [0, BitVec.ofNat 8 s.log.dropped] s)
    ∧ (∀ x rest, s.log.records = x :: rest →
      Answers (.faultRead r) 0x0D r.args r s .done false
        ([BitVec.ofNat 8 s.log.records.length, BitVec.ofNat 8 s.log.dropped] ++ wordBytes x.number
          ++ [x.cause.code, x.state.code] ++ wordBytes x.period
          ++ [BitVec.ofNat 8 (x.tick / 65536), BitVec.ofNat 8 (x.tick / 256), BitVec.ofNat 8 x.tick]
          ++ [(x.group.map fun g => BitVec.ofNat 8 g.val).getD 0xFF,
              (x.input.map fun i => BitVec.ofNat 8 i.val).getD 0xFF,
              (x.channel.map fun c => BitVec.ofNat 8 c.val).getD 0xFF])
        s))
  ∧ (∀ (s : State) (r : Request), s.Takes .countersRead r.args r →
    Answers (.countersRead r) 0x0F r.args r s .done false
      ([CounterId.framesGood, .framesBad, .symbolErrors, .slotMismatch, .slotRepeat, .spLate, .spFar, .spOverrun,
          .spReplaced, .holds, .clamps, .cycleTripsG0, .cycleTripsG1, .mgmtCheckBad, .mgmtReplayed,
          .loadAborts].flatMap
        fun id => wordBytes (BitVec.ofNat 16 (s.counters.get id)))
      s)
  ∧ [FaultCause.tripTimed, .tripLatch, .escalated, .linkLoss, .supplyLoss, .holdLimit].map FaultCause.code
      = [1, 2, 3, 4, 5, 6]

/-! ## Requests that write entries and banks -/

/-- WRITE ENTRY to a bank table replaces the entry's bytes in the shadow image and no other byte of either image (R9,
R164). -/
def Obligations.WriteEntryBankStores : Prop :=
  ∀ (s : State) (r : Request) (table index : Byte) (t : Table) (entry : List Byte),
    r.args = [index, 0x02] ++ entry → Table.ofCode table = some t → t.isBank = true → index.toNat < t.entries →
    entry.length = t.size → s.Takes .writeEntry (table :: r.args) r → s.bank.shadowImage.wf = true →
    s.bank.shadow = .editable ∨ s.bank.shadow = .broken →
    ∃ bank,
      Answers (.writeEntryBank table r) 0x03 (table :: r.args) r s .done false []
        { s with bank := bank, mgmt := s.mgmt.remember r.seq .writeEntry .done [] }
      ∧ bank.active = s.bank.active ∧ bank.cond = s.bank.cond ∧ bank.shadow = s.bank.shadow
      ∧ bank.commit = s.bank.commit ∧ bank.activeImage = s.bank.activeImage
      ∧ ∀ a, bank.shadowImage.read a =
          if t.base index.toNat ≤ a ∧ a < t.base index.toNat + t.size then byteAt entry (a - t.base index.toNat)
          else s.bank.shadowImage.read a

/-- WRITE ENTRY to the TRIP INPUT, GROUP and NODE tables in CONFIG replaces the one entry it names when every field is in
range (R29, R82, R83, R164); the role is not examined. -/
def Obligations.WriteEntryStoresNodeTables : Prop :=
  (∀ (s : State) (r : Request) (i : Fin 4) (role : Byte) (e : TripEntry),
    r.args = [BitVec.ofNat 8 i.val, role] ++ e.encode → e.blanking.toNat ≤ 1023 → e.delay ≠ 0 →
    s.Takes .writeEntry (0x04 :: r.args) r → s.node.state = .config →
    Answers (.writeEntryTripInput r) 0x03 (0x04 :: r.args) r s .done false []
      { s with
        prot := { s.prot with inputs := s.prot.inputs.modify i fun x => { x with entry := e } }
        mgmt := s.mgmt.remember r.seq .writeEntry .done [] })
  ∧ (∀ (s : State) (r : Request) (g : Fin 2) (role e w : Byte), r.args = [BitVec.ofNat 8 g.val, role, e, w] → w ≠ 0 →
    s.Takes .writeEntry (0x05 :: r.args) r → s.node.state = .config →
    Answers (.writeEntryGroup r) 0x03 (0x05 :: r.args) r s .done false []
      { s with
        prot := { s.prot with groups := s.prot.groups.modify g fun x => { x with entry := ⟨e, w⟩ } }
        mgmt := s.mgmt.remember r.seq .writeEntry .done [] })
  ∧ (∀ (s : State) (r : Request) (role : Byte) (comp : Word), r.args = [0, role] ++ wordBytes comp →
    comp.toNat ≤ 1023 → s.Takes .writeEntry (0x06 :: r.args) r → s.node.state = .config →
    Answers (.writeEntryNode r) 0x03 (0x06 :: r.args) r s .done false []
      { s with mgmt := { s.mgmt.remember r.seq .writeEntry .done [] with comp := comp } })

/-- The refused writes change nothing but the replay cache (R9, R18, R82, R83, R164). -/
def Obligations.RefusedWritesChangeNothing : Prop :=
  (∀ (s : State) (r : Request) (table index role : Byte) (t : Table) (entry : List Byte),
    r.args = [index, role] ++ entry → Table.ofCode table = some t → t.isBank = true → entry.length = t.size →
    s.Takes .writeEntry (table :: r.args) r →
    let reply (st : Status) := Answers (.writeEntryBank table r) 0x03 (table :: r.args) r s st false []
      { s with mgmt := s.mgmt.remember r.seq .writeEntry st [] }
    (t.entries ≤ index.toNat ∨ role ≠ 0x02 → reply .invalid)
    ∧ (index.toNat < t.entries → role = 0x02 →
        s.bank.shadow = .loading ∨ s.bank.shadow = .checking ∨ s.bank.shadow = .frozen → reply .refusedBusy))
  ∧ (∀ (s : State) (r : Request) (index role : Byte) (entry : List Byte), r.args = [index, role] ++ entry →
    s.Takes .writeEntry (0x04 :: r.args) r →
    let reply (st : Status) := Answers (.writeEntryTripInput r) 0x03 (0x04 :: r.args) r s st false []
      { s with mgmt := s.mgmt.remember r.seq .writeEntry st [] }
    (3 < index.toNat → reply .invalid)
    ∧ (index.toNat ≤ 3 → s.node.state ≠ .config → reply .refusedState)
    ∧ (s.node.state = .config →
        1 < (byteAt entry 0).toNat ∨ (1 < (byteAt entry 1).toNat ∧ byteAt entry 1 ≠ 0xFF)
          ∨ 1023 < (wordAt entry 3).toNat ∨ byteAt entry 5 = 0 ∨ 3 < (byteAt entry 5).toNat ∨ wordAt entry 6 = 0 →
        reply .invalid))
  ∧ (∀ (s : State) (r : Request) (index role e w : Byte), r.args = [index, role, e, w] →
    s.Takes .writeEntry (0x05 :: r.args) r →
    let reply (st : Status) := Answers (.writeEntryGroup r) 0x03 (0x05 :: r.args) r s st false []
      { s with mgmt := s.mgmt.remember r.seq .writeEntry st [] }
    (1 < index.toNat → reply .invalid)
    ∧ (index.toNat ≤ 1 → s.node.state ≠ .config → reply .refusedState)
    ∧ (s.node.state = .config → w = 0 → reply .invalid))
  ∧ (∀ (s : State) (r : Request) (index role : Byte) (comp : Word), r.args = [index, role] ++ wordBytes comp →
    s.Takes .writeEntry (0x06 :: r.args) r →
    let reply (st : Status) := Answers (.writeEntryNode r) 0x03 (0x06 :: r.args) r s st false []
      { s with mgmt := s.mgmt.remember r.seq .writeEntry st [] }
    (index ≠ 0 → reply .invalid)
    ∧ (index = 0 → s.node.state ≠ .config → reply .refusedState)
    ∧ (s.node.state = .config → 1023 < comp.toNat → reply .invalid))

/-- COPY ACTIVE copies every byte of the active image into the shadow and leaves it EDITABLE; a LOADING, CHECKING or
FROZEN shadow answers REFUSED_BUSY (R20). -/
def Obligations.CopyActiveCopiesTheImage : Prop :=
  ∀ (s : State) (r : Request), s.Takes .copyActive r.args r →
    (s.bank.shadow = .editable ∨ s.bank.shadow = .broken →
      ∃ bank,
        Answers (.copyActive r) 0x04 r.args r s .done false []
          { s with bank := bank, mgmt := s.mgmt.remember r.seq .copyActive .done [] }
        ∧ bank.active = s.bank.active ∧ bank.cond = s.bank.cond ∧ bank.shadow = .editable
        ∧ bank.commit = s.bank.commit ∧ bank.activeImage = s.bank.activeImage
        ∧ ∀ a, bank.shadowImage.read a = s.bank.activeImage.read a)
    ∧ (s.bank.shadow = .loading ∨ s.bank.shadow = .checking ∨ s.bank.shadow = .frozen →
      Answers (.copyActive r) 0x04 r.args r s .refusedBusy false []
        { s with mgmt := s.mgmt.remember r.seq .copyActive .refusedBusy [] })

/-- COMMIT accepted: in CONFIG a valid EDITABLE shadow becomes the active bank at once, with no byte moved; in ARMED and RUN
it is frozen until the boundary into the swap period, the one named or the next (R1, R6, R14, R15). An image is valid
exactly when none of the checks fails that the tables of validation spell (R10 to R13). -/
def Obligations.CommitAccepted : Prop :=
  (∀ m : Memory, validate m = none ↔ ∀ x ∈ imageChecks m, ¬ x.fails)
  ∧ (∀ (s : State) (r : Request), s.Takes .commit r.args r → s.node.state = .config →
    s.bank.shadow = .editable → validate s.bank.shadowImage = none →
    ∃ bank,
      Answers (.commit r) 0x05 r.args r s .done false []
        { s with bank := bank, mgmt := s.mgmt.remember r.seq .commit .done [] }
      ∧ bank.imgA = s.bank.imgA ∧ bank.imgB = s.bank.imgB ∧ bank.active ≠ s.bank.active
      ∧ bank.activeImage = s.bank.shadowImage ∧ bank.shadowImage = s.bank.activeImage
      ∧ bank.cond = .valid ∧ bank.shadow = .editable ∧ bank.commit = s.bank.commit)
  ∧ (∀ (s : State) (r : Request) (p : Word),
    (r.args = [] ∧ p = s.timer.period + 1
      ∨ r.args = wordBytes p ∧ 1 ≤ distance s.timer.period p ∧ distance s.timer.period p ≤ 255) →
    s.Takes .commit r.args r → s.node.state = .armed ∨ s.node.state = .run → s.bank.commit = none →
    s.bank.shadow = .editable → validate s.bank.shadowImage = none →
    Answers (.commit r) 0x05 r.args r s .pending false []
      { s with
        bank := { s.bank with shadow := .frozen, commit := some ⟨p, r.seq⟩ }
        mgmt := s.mgmt.remember r.seq .commit .pending [] })

/-- The COMMITs that are not accepted, in the order of their tests (R14, R15). Validation reports reason and index of the
first check that fails, header, channels 0 to 5, slots 0 to 15, binding (R10 to R13). -/
def Obligations.CommitRefusals : Prop :=
  (∀ (m : Memory) (r : Reason) (i : Byte), validate m = some (r, i) ↔
    ∃ before x after, imageChecks m = before ++ x :: after ∧ (∀ y ∈ before, ¬ y.fails) ∧ x.fails
      ∧ x.reason = r ∧ x.index = i)
  ∧ [Reason.periodRange, .holdRange, .lossRange, .reservedNonzero, .patternUnknown, .groupRange, .deadTimeRange,
      .onTimeLimits, .phaseRange, .edgeCount, .edgeOrder, .edgeRange, .edgeState, .slotKind, .slotDuplicate, .slotRange,
      .slotOverlap, .selectorUnknown, .unboundChannel, .loadIncomplete, .checksumMismatch].map Reason.code
    = [0x01, 0x02, 0x03, 0x04, 0x05, 0x06, 0x07, 0x08, 0x09, 0x0A, 0x0B, 0x0C, 0x0D, 0x0E, 0x0F, 0x10, 0x11, 0x12, 0x13,
      0x20, 0x21]
  ∧ ∀ (s : State) (r : Request), s.Takes .commit r.args r →
    let reply (st : Status) (data : List Byte) := Answers (.commit r) 0x05 r.args r s st false data
      { s with mgmt := s.mgmt.remember r.seq .commit st data }
    (s.node.state = .safe → reply .refusedState [])
    ∧ (s.node.state = .config → s.bank.shadow = .broken → reply .checkFailed [0x20, 0xFF])
    ∧ (s.node.state = .config → s.bank.shadow = .loading ∨ s.bank.shadow = .checking → reply .refusedBusy [])
    ∧ (∀ x i, s.node.state = .config → s.bank.shadow = .editable → validate s.bank.shadowImage = some (x, i) →
        reply .checkFailed [x.code, i])
    ∧ (s.node.state = .armed ∨ s.node.state = .run →
        (s.bank.commit ≠ none ∨ s.bank.shadow = .loading ∨ s.bank.shadow = .checking → reply .refusedBusy [])
        ∧ (s.bank.commit = none → s.bank.shadow = .broken → reply .checkFailed [0x20, 0xFF])
        ∧ (∀ p, s.bank.commit = none → s.bank.shadow = .editable → r.args = wordBytes p →
            distance s.timer.period p = 0 ∨ 255 < distance s.timer.period p → reply .late [])
        ∧ (∀ x i, s.bank.commit = none → s.bank.shadow = .editable →
            (r.args = [] ∨ ∃ p, r.args = wordBytes p ∧ 1 ≤ distance s.timer.period p
              ∧ distance s.timer.period p ≤ 255) →
            validate s.bank.shadowImage = some (x, i) → reply .checkFailed [x.code, i]))

/-! ## Requests to the Node State Controller and the Period Timer -/

/-- ARM: accepted, it sets timer, node state, setpoint queue values, gates and detection; refused, it changes nothing, with
the outcome of the first test that applies (R27, R28, R60, R85). -/
def Obligations.ArmStartsTheNode : Prop :=
  ∀ (s : State) (r : Request) (n0 t0 start : Word), r.args = wordBytes n0 ++ wordBytes t0 ++ wordBytes start →
    s.Takes .arm r.args r →
    let m := s.bank.activeImage
    let refused (st : Status) (data : List Byte) := Answers (.arm r) 0x06 r.args r s st false data
      { s with mgmt := s.mgmt.remember r.seq .arm st data }
    (s.node.state ≠ .config → refused .refusedState [0x01])
    ∧ (s.node.state = .config → s.bank.cond = .empty → refused .refusedState [0x02])
    ∧ (s.node.state = .config → s.bank.cond = .valid → distance n0 start = 0 ∨ 255 < distance n0 start →
        refused .invalid [])
    ∧ (s.node.state = .config → s.bank.cond = .valid → 1 ≤ distance n0 start → distance n0 start ≤ 255 →
        (imageP m ≤ t0.toNat + s.mgmt.comp.toNat → refused .invalid [])
        ∧ (t0.toNat + s.mgmt.comp.toNat < imageP m → s.pins.drvOk = false → refused .refusedState [0x03])
        ∧ (t0.toNat + s.mgmt.comp.toNat < imageP m → s.pins.drvOk = true →
            Answers (.arm r) 0x06 r.args r s .done false []
              { s with
                timer := { s.timer with
                  tick := t0.toNat + s.mgmt.comp.toNat, len := imageP m, period := n0, running := true
                  wrapDue := false }
                node := { s.node with state := .armed, start := some start, loss := 0 }
                queue := s.queue.mapIdx fun c q =>
                  { q with lastOn := channelMin m c, lastPhase := channelPhase m c, hold := 0, holdOff := false }
                gen := .all { plan := [⟨0, .off⟩], closing := .off, output := .off, flag := none, echo := 0xFFFF,
                              cur := 0, dead := none }
                prot :=
                  { inputs := s.prot.inputs.map fun x =>
                      { x with count := 0, blank := 0, blanked := false, episode := false }
                    groups := s.prot.groups.map fun g => { g with esc := 0, window := 0 } }
                mgmt := s.mgmt.remember r.seq .arm .done [] }))

/-- ALIGN in ARMED sets the timer and flushes the queues; refused it changes nothing (R31, R59). -/
def Obligations.AlignSetsTheTimer : Prop :=
  ∀ (s : State) (r : Request) (n t : Word), r.args = wordBytes n ++ wordBytes t → s.Takes .align r.args r →
    let refused (st : Status) := Answers (.align r) 0x07 r.args r s st false []
      { s with mgmt := s.mgmt.remember r.seq .align st [] }
    (s.node.state ≠ .armed → refused .refusedState)
    ∧ (s.node.state = .armed → s.bank.commit ≠ none → refused .refusedBusy)
    ∧ (s.node.state = .armed → s.bank.commit = none → imageP s.bank.activeImage ≤ t.toNat → refused .invalid)
    ∧ (∀ start, s.node.state = .armed → s.bank.commit = none → s.node.start = some start →
        t.toNat < imageP s.bank.activeImage →
        (distance n start = 0 ∨ 255 < distance n start → refused .invalid)
        ∧ (1 ≤ distance n start → distance n start ≤ 255 →
            Answers (.align r) 0x07 r.args r s .done false []
              { s with
                timer := { s.timer with
                  tick := t.toNat, len := imageP s.bank.activeImage, period := n, trim := none, wrapDue := false }
                queue := s.queue.map fun q => { q with records := [] }
                slots := { s.slots with staging := [] }
                mgmt := s.mgmt.remember r.seq .align .done [] }))

/-- TRIM in ARMED and RUN makes its delta the pending trim and says whether it replaced one; refused it changes nothing
(R25). -/
def Obligations.TrimIsPending : Prop :=
  ∀ (s : State) (r : Request) (delta : Word), r.args = wordBytes delta → s.Takes .trim r.args r →
    let refused (st : Status) := Answers (.trim r) 0x08 r.args r s st false []
      { s with mgmt := s.mgmt.remember r.seq .trim st [] }
    (s.node.state ≠ .armed → s.node.state ≠ .run → refused .refusedState)
    ∧ (s.node.state = .armed ∨ s.node.state = .run →
        (imageP s.bank.activeImage / 8 < delta.toInt.natAbs → refused .invalid)
        ∧ (delta.toInt.natAbs ≤ imageP s.bank.activeImage / 8 →
            let data : List Byte := [if s.timer.trim = none then 0x00 else 0x01]
            Answers (.trim r) 0x08 r.args r s .done false data
              { s with
                timer := { s.timer with trim := some delta.toInt }
                mgmt := s.mgmt.remember r.seq .trim .done data }))

/-- STOP, addressed and broadcast, in every node state (R32). -/
def Obligations.StopEntersSafe : Prop :=
  ReqKind.stop.mayBroadcast = true ∧ ReqKind.stop.cached = true
  ∧ ∀ (s : State) (r : Request),
    let u := { s with mgmt := s.mgmt.makeRoom r.seq }
    let stopped := { u.safeFrom .stop with
      mgmt := (u.safeFrom .stop).mgmt.insert ⟨r.seq, .stop, .done, []⟩ }
    let kept (st : Status) := { s with mgmt := s.mgmt.remember r.seq .stop st [] }
    (u.safeFrom .stop).node.state = .safe ∧ (u.safeFrom .stop).node.cause = .stop
    ∧ (u.safeFrom .stop).log = s.log
    ∧ (s.Takes .stop r.args r →
        (s.node.state = .armed ∨ s.node.state = .run → Answers (.stop r) 0x09 r.args r s .done false [] stopped)
        ∧ (s.node.state = .safe → Answers (.stop r) 0x09 r.args r s .done false [] (kept .done))
        ∧ (s.node.state = .config →
            Answers (.stop r) 0x09 r.args r s .refusedState false [] (kept .refusedState)))
    ∧ (s.TakesBroadcast .stop r.args r →
        (s.node.state = .armed ∨ s.node.state = .run → Tallied (.stop r) 0x09 r.args r s 0 stopped)
        ∧ (s.node.state = .safe → Tallied (.stop r) 0x09 r.args r s 0 (kept .done))
        ∧ (s.node.state = .config → Tallied (.stop r) 0x09 r.args r s 1 (kept .refusedState)))

/-- CLEAR in SAFE returns the node to CONFIG; elsewhere it changes nothing (R38, R59, R101, R145). -/
def Obligations.ClearReturnsToConfig : Prop :=
  ∀ (s : State) (r : Request), s.Takes .clear r.args r →
    (s.node.state ≠ .safe →
      Answers (.clear r) 0x0A r.args r s .refusedState false []
        { s with mgmt := s.mgmt.remember r.seq .clear .refusedState [] })
    ∧ (s.node.state = .safe →
      Answers (.clear r) 0x0A r.args r s .done false []
        { s with
          node := { state := .config, cause := .none, start := none, loss := 0 }
          timer := { s.timer with tick := 0, trim := none, running := false, wrapDue := false }
          queue := s.queue.map fun q => { q with records := [] }
          slots := { s.slots with walker := .idle, staging := [] }
          prot :=
            { inputs := s.prot.inputs.map fun x =>
                { x with count := 0, blank := 0, blanked := false, episode := false }
              groups := s.prot.groups.map fun g => { g with state := .enabled, timer := 0, esc := 0, window := 0 } }
          mgmt := s.mgmt.remember r.seq .clear .done [] })

/-- RESTART in every addressed state returns the node to CONFIG with the values of R39, R62, R81, R101, R145, R158 and
R173; what R39 keeps is kept. -/
def Obligations.RestartReinitialises : Prop :=
  ∀ (s : State) (r : Request), s.Takes .restart r.args r →
    Answers (.restart r) 0x0B r.args r s .done false []
      { s with
        node := { state := .config, cause := .none, start := none, loss := 0 }
        timer := { tick := 0, len := 500, period := 0, trim := none, running := false, wrapDue := false }
        queue := .all { records := [], lastOn := 0, lastPhase := 0, hold := 0, holdOff := false }
        slots := { s.slots with walker := .idle, staging := [] }
        gen := .all { plan := [⟨0, .off⟩], closing := .off, output := .off, flag := none, echo := 0xFFFF, cur := 0,
                      dead := none }
        prot :=
          { inputs := s.prot.inputs.map fun x =>
              { x with count := 0, blank := 0, blanked := false, episode := false }
            groups := s.prot.groups.map fun g => { g with state := .enabled, timer := 0, esc := 0, window := 0 } }
        bank := { s.bank with
          commit := none
          shadow :=
            match s.load.state with
            | .idle => if s.bank.commit = none then s.bank.shadow else .editable
            | .receiving => if 1 ≤ s.load.written then .broken else s.load.prior
            | .checking => .broken }
        load :=
          match s.load.state with
          | .idle => s.load
          | .receiving => { s.load with state := .idle, gap := 0 }
          | .checking => { s.load with state := .idle, checkSeq := none, checkLeft := 0 }
        counters := .zero
        mgmt := { s.mgmt with cache := [] } }

/-! ## TRIP ACK, FAULT POP, COUNTERS CLEAR -/

/-- TRIP ACK: its tests in order; a LATCHED group without an ASSERTED LATCH input becomes ENABLED, in RUN with the flag of
each of its channels set (R99, R76). -/
def Obligations.TripAckReleases : Prop :=
  ∀ (s : State) (r : Request) (b : Byte), r.args = [b] → s.Takes .tripAck r.args r →
    let kept (st : Status) := Answers (.tripAck r) 0x0C r.args r s st false []
      { s with mgmt := s.mgmt.remember r.seq .tripAck st [] }
    (s.node.state = .config → kept .refusedState)
    ∧ (s.node.state ≠ .config → 1 < b.toNat → kept .invalid)
    ∧ (∀ g : Fin 2, s.node.state ≠ .config → b.toNat = g.val →
        ((s.prot.groups.get g).state ≠ .latched → kept .done)
        ∧ ((s.prot.groups.get g).state = .latched →
            (∃ i, (s.prot.inputs.get i).entry.group = some g ∧ (s.prot.inputs.get i).entry.action = .latch
              ∧ (s.prot.inputs.get i).asserted = true) → kept .active)
        ∧ ((s.prot.groups.get g).state = .latched →
            (∀ i, (s.prot.inputs.get i).entry.group = some g → (s.prot.inputs.get i).entry.action = .latch →
              (s.prot.inputs.get i).asserted = false) →
            ∃ gen prot,
              Answers (.tripAck r) 0x0C r.args r s .done false []
                { s with gen := gen, prot := prot, mgmt := s.mgmt.remember r.seq .tripAck .done [] }
              ∧ (∀ h, prot.groups.get h =
                  if h = g then { s.prot.groups.get h with state := .enabled } else s.prot.groups.get h)
              ∧ (∀ c, gen.get c =
                  { s.gen.get c with
                    flag := if s.node.state = .run ∧ s.groupOf c = g then some s.timer.tick else (s.gen.get c).flag
                    output := (gen.get c).output })
              ∧ s.Driven { s with gen := gen, prot := prot }))

/-- FAULT POP removes the oldest record that it names and nothing else; COUNTERS CLEAR sets every counter to 0, so that its
own frame is the first one counted (R110, R114). -/
def Obligations.LogAndCountersAreEmptied : Prop :=
  (∀ (s : State) (r : Request) (k : Word), r.args = wordBytes k → s.Takes .faultPop r.args r →
    let n := s.log.records.length
    let kept (st : Status) (data : List Byte) := Answers (.faultPop r) 0x0E r.args r s st false data
      { s with mgmt := s.mgmt.remember r.seq .faultPop st data }
    (s.log.records = [] → kept .done [0])
    ∧ (∀ x rest, s.log.records = x :: rest → x.number ≠ k → kept .invalid [BitVec.ofNat 8 n])
    ∧ (∀ x rest, s.log.records = x :: rest → x.number = k →
        Answers (.faultPop r) 0x0E r.args r s .done false [BitVec.ofNat 8 (n - 1)]
          { s with
            log := { records := rest, next := s.log.next, dropped := if rest = [] then 0 else s.log.dropped }
            mgmt := s.mgmt.remember r.seq .faultPop .done [BitVec.ofNat 8 (n - 1)] }))
  ∧ (∀ (s : State) (r : Request), s.Takes .countersClear r.args r →
    Answers (.countersClear r) 0x10 r.args r s .done false []
      { s with counters := .zero, mgmt := s.mgmt.remember r.seq .countersClear .done [] })

/-! ## Bank load jobs -/

/-- LOAD BEGIN: its tests in order; accepted, the job is RECEIVING, the shadow LOADING, the image untouched (R166). -/
def Obligations.LoadBeginStartsAJob : Prop :=
  ∀ (s : State) (r : Request) (first count : Byte) (checksum : Word),
    r.args = [first, count] ++ wordBytes checksum → s.Takes .loadBegin r.args r →
    let refused (st : Status) := Answers (.loadBegin r) 0x11 r.args r s st false []
      { s with mgmt := s.mgmt.remember r.seq .loadBegin st [] }
    (s.load.state ≠ .idle ∨ s.bank.shadow = .frozen → refused .refusedBusy)
    ∧ (s.load.state = .idle → s.bank.shadow ≠ .frozen →
        6 < first.toNat ∨ count = 0 ∨ 7 < count.toNat ∨ 7 < first.toNat + count.toNat → refused .invalid)
    ∧ (s.load.state = .idle → s.bank.shadow ≠ .frozen → count ≠ 0 → first.toNat + count.toNat ≤ 7 →
        Answers (.loadBegin r) 0x11 r.args r s .done false []
          { s with
            load :=
              { state := .receiving, first := first.toNat, count := count.toNat, next := first.toNat
                checksum := checksum, written := 0, prior := s.bank.shadow, gap := 2000000, checkSeq := none
                checkLeft := 0 }
            bank := { s.bank with shadow := .loading }
            mgmt := s.mgmt.remember r.seq .loadBegin .done [] })

/-- LOAD DATA: the next block is written and only its 32 bytes change; a repeated block changes nothing; any other index
aborts the job; outside RECEIVING it is refused (R167, R168). -/
def Obligations.LoadDataWritesTheNextBlock : Prop :=
  ∀ (s : State) (r : Request) (index : Byte) (block : List Byte), r.args = index :: block →
    s.Takes .loadData r.args r →
    let kept (st : Status) (data : List Byte) := Answers (.loadData r) 0x12 r.args r s st false data
      { s with mgmt := s.mgmt.remember r.seq .loadData st data }
    (s.load.state = .idle → kept .refusedState [])
    ∧ (s.load.state = .checking → kept .refusedBusy [])
    ∧ (s.load.state = .receiving → index.toNat = s.load.next → s.load.next < s.load.first + s.load.count →
        s.load.first + s.load.count ≤ 7 → s.bank.shadowImage.wf = true →
        let data : List Byte := [BitVec.ofNat 8 (s.load.next + 1)]
        ∃ bank,
          Answers (.loadData r) 0x12 r.args r s .done false data
            { s with
              bank := bank
              load := { s.load with next := s.load.next + 1, written := s.load.written + 1, gap := 2000000 }
              mgmt := s.mgmt.remember r.seq .loadData .done data }
          ∧ bank.active = s.bank.active ∧ bank.cond = s.bank.cond ∧ bank.shadow = s.bank.shadow
          ∧ bank.commit = s.bank.commit ∧ bank.activeImage = s.bank.activeImage
          ∧ ∀ a, bank.shadowImage.read a =
              if 32 * index.toNat ≤ a ∧ a < 32 * index.toNat + 32 then byteAt block (a - 32 * index.toNat)
              else s.bank.shadowImage.read a)
    ∧ (s.load.state = .receiving → index.toNat + 1 = s.load.next → s.load.first < s.load.next →
        kept .done [BitVec.ofNat 8 s.load.next])
    ∧ (s.load.state = .receiving →
        ¬ (index.toNat = s.load.next ∧ s.load.next < s.load.first + s.load.count) →
        ¬ (index.toNat + 1 = s.load.next ∧ s.load.first < s.load.next) →
        Answers (.loadData r) 0x12 r.args r s .outOfOrder false []
          { s with
            load := { s.load with state := .idle, gap := 0 }
            bank := { s.bank with shadow := if 1 ≤ s.load.written then .broken else s.load.prior }
            counters := s.counters.add 1 .loadAborts
            mgmt := s.mgmt.remember r.seq .loadData .outOfOrder [] })

/-- LOAD END starts the check of a complete job; LOAD CANCEL ends a RECEIVING job without a count (R170, R172). -/
def Obligations.LoadEndAndCancel : Prop :=
  (∀ (s : State) (r : Request), s.Takes .loadEnd r.args r →
    let kept (st : Status) := Answers (.loadEnd r) 0x13 r.args r s st false []
      { s with mgmt := s.mgmt.remember r.seq .loadEnd st [] }
    (s.load.state = .idle → kept .refusedState)
    ∧ (s.load.state = .checking → kept .refusedBusy)
    ∧ (s.load.state = .receiving → s.load.next < s.load.first + s.load.count → kept .incomplete)
    ∧ (s.load.state = .receiving → s.load.first + s.load.count ≤ s.load.next →
        Answers (.loadEnd r) 0x13 r.args r s .pending false []
          { s with
            load := { s.load with state := .checking, gap := 0, checkSeq := some r.seq, checkLeft := 300 }
            bank := { s.bank with shadow := .checking }
            mgmt := s.mgmt.remember r.seq .loadEnd .pending [] }))
  ∧ (∀ (s : State) (r : Request), s.Takes .loadCancel r.args r →
    let kept (st : Status) := Answers (.loadCancel r) 0x14 r.args r s st false []
      { s with mgmt := s.mgmt.remember r.seq .loadCancel st [] }
    (s.load.state = .idle → kept .done)
    ∧ (s.load.state = .checking → kept .refusedBusy)
    ∧ (s.load.state = .receiving →
        Answers (.loadCancel r) 0x14 r.args r s .done false []
          { s with
            load := { s.load with state := .idle, gap := 0 }
            bank := { s.bank with shadow := if 1 ≤ s.load.written then .broken else s.load.prior }
            mgmt := s.mgmt.remember r.seq .loadCancel .done [] }))

/-- The gap timer's expiry aborts and counts; the end of the check decides the shadow by the checksum and completes the
cache record of its LOAD END (R169, R171, R157). The ticks until then pass first (log 4). -/
def Obligations.LoadJobEndsByItself : Prop :=
  (∀ s : State, s.load.state = .receiving →
    let u := s.elapse s.load.gap
    exec .gapTimerExpiry s = .next
      { u with
        load := { u.load with state := .idle, gap := 0 }
        bank := { s.bank with shadow := if 1 ≤ s.load.written then .broken else s.load.prior }
        counters := s.counters.add 1 .loadAborts })
  ∧ (∀ s : State, s.load.state = .checking →
    let u := s.elapse s.load.checkLeft
    let crc := crc16 ((List.range (32 * s.load.count)).map fun k => s.bank.shadowImage.read (32 * s.load.first + k))
    let ended (shadow : ShadowState) (st : Status) (data : List Byte) (counters : Counters) : State :=
      { u with
        load := { u.load with state := .idle, gap := 0, checkSeq := none, checkLeft := 0 }
        bank := { s.bank with shadow := shadow }
        mgmt := { s.mgmt with
          cache := s.mgmt.cache.map fun x =>
            if s.load.checkSeq = some x.seq ∧ x.kind = .loadEnd ∧ x.status = .pending then
              { x with status := st, data := data }
            else x }
        counters := counters }
    (crc = s.load.checksum → exec .checkCompletion s = .next (ended .editable .done [] s.counters))
    ∧ (crc ≠ s.load.checksum →
        exec .checkCompletion s
          = .next (ended .broken .checkFailed [0x21, 0xFF] (s.counters.add 1 .loadAborts))))

/-! ## The tests every request passes -/

/-- Tests 1, 2 and 4 of R150: an unknown kind, a reply area too small, an argument length that the kind does not allow
execute nothing; without room for three bytes nothing is written. -/
def Obligations.RequestTests : Prop :=
  (∀ (s : State) (r : Request) (kind : Byte), kind = 0 ∨ 0x14 < kind.toNat → s.Ready →
    s.node.state ≠ .unaddressed → r.dest = s.roll.address → Intact r r.args →
    (3 ≤ r.area.length → Answers (.unknownRequest kind r) kind r.args r s .unknownRequest false [] s)
    ∧ (r.area.length < 3 → Unanswered (.unknownRequest kind r) kind r.args r s s))
  ∧ (∀ (i : Instr) (k : ReqKind) (args : List Byte) (s : State) (r : Request),
    carried i = some (k.code, args, r) → s.Ready → s.node.state ≠ .unaddressed → r.dest = s.roll.address →
    Intact r args →
    (r.area.length < 3 + largestData k args → 3 ≤ r.area.length → Answers i k.code args r s .noRoom false [] s)
    ∧ (r.area.length < 3 → Unanswered i k.code args r s s)
    ∧ (3 + largestData k args ≤ r.area.length → (k.cached = true → s.mgmt.lookup r.seq k = none) →
        argLengthOk k args = false →
        Answers i k.code args r s .invalid false []
          (if k.cached then { s with mgmt := s.mgmt.remember r.seq k .invalid [] } else s)))
  ∧ [Status.done, .pending, .cancelled, .refusedState, .refusedBusy, .invalid, .checkFailed, .late, .incomplete,
      .outOfOrder, .active, .noRoom, .unknownRequest].map Status.code
    = [0x00, 0x01, 0x02, 0x10, 0x11, 0x12, 0x13, 0x14, 0x15, 0x16, 0x17, 0x18, 0x19]

/-- A re-sent request of a cached kind is answered from the replay cache with the replayed flag, whatever its arguments, and
is not executed (R156). -/
def Obligations.ReplayExecutesNothing : Prop :=
  ∀ (i : Instr) (k : ReqKind) (args : List Byte) (s : State) (r : Request) (x : CacheRecord),
    carried i = some (k.code, args, r) → s.Ready → s.node.state ≠ .unaddressed → r.dest = s.roll.address →
    Intact r args → 3 + largestData k args ≤ r.area.length → 3 + x.data.length ≤ r.area.length →
    k.cached = true → s.mgmt.lookup r.seq k = some x →
    Answers i k.code args r s x.status true x.data { s with counters := s.counters.add 1 .mgmtReplayed }

/-- A broadcast: tests 1 to 5 of R159; the kinds that may be broadcast are decided as for an addressed request, and the
status counts in its tally. -/
def Obligations.BroadcastTallies : Prop :=
  (∀ (i : Instr) (k : ReqKind) (args : List Byte) (s : State) (r : Request),
    carried i = some (k.code, args, r) → s.TakesBroadcast k args r →
    k = .arm ∨ k = .commit ∨ k = .stop ∨ k = .clear ∨ k = .trim ∨ k = .countersClear ∨ k = .restart →
      let a := (decideKind k r.seq args s).1
      Tallied i k.code args r s (if a.status = .done then 0 else if a.status = .pending then 2 else 1) a.st)
  ∧ (∀ (i : Instr) (kind : Byte) (args : List Byte) (s : State) (r : Request),
    carried i = some (kind, args, r) → s.Ready → s.node.state ≠ .unaddressed → r.dest = 255 →
    s.roll.address ≠ 255 → Intact r args →
    (r.area.length < 3 → Unanswered i kind args r s s)
    ∧ (3 ≤ r.area.length →
        kind ≠ 0x05 → kind ≠ 0x06 → kind ≠ 0x08 → kind ≠ 0x09 → kind ≠ 0x0A → kind ≠ 0x0B → kind ≠ 0x10 →
        Tallied i kind args r s 1 s)
    ∧ (∀ k x, 3 ≤ r.area.length → kind = k.code → k.mayBroadcast = true → k.cached = true →
        s.mgmt.lookup r.seq k = some x →
        Tallied i kind args r s (if x.status = .done then 0 else if x.status = .pending then 2 else 1)
          { s with counters := s.counters.add 1 .mgmtReplayed })
    ∧ (∀ k, 3 ≤ r.area.length → kind = k.code → k.mayBroadcast = true →
        (k.cached = true → s.mgmt.lookup r.seq k = none) → argLengthOk k args = false →
        Tallied i kind args r s 1
          (if k.cached then { s with mgmt := s.mgmt.remember r.seq k .invalid [] } else s)))

/-- A request whose check byte arrives changed is not executed and is counted in mgmt_check_bad (R149). -/
def Obligations.FailedCheckExecutesNothing : Prop :=
  ∀ (i : Instr) (kind : Byte) (args : List Byte) (s : State) (r : Request) (b : Byte),
    carried i = some (kind, args, r) → s.Ready → s.node.state ≠ .unaddressed →
    r.dest = s.roll.address ∨ r.dest = 255 → Intact { r with damage := [] } args →
    r.damage = [(8 + args.length, .byte b)] →
    b ≠ crc8 ([r.dest, r.seq, kind, BitVec.ofNat 8 args.length] ++ args) →
    ∃ relay frame id,
      exec i s = .next
        { s with
          relay := relay, mgmt := { s.mgmt with frame := frame }
          counters := (s.counters.add 1 .mgmtCheckBad).add 1 id }
      ∧ (id = .framesGood ∨ id = .framesBad)

/-! ## Ticks and period boundaries -/

/-- A step on an empty queue: with an event due, one event that is due enters the queue and no time passes (log 5); with
none due, one tick passes (log 3). Which events are due: `State.Due` (R23, R70, R72, R87, R95, R169, R171). A tick: the
timer, the detection of each input, the restore timers, the dead times and the load job go on by one, and nothing else
changes (R22, R86 to R88, R95, R169). `elapse` is that tick so many times over, a boundary is due after `toBoundary` ticks
and a trip after `toTrip` ticks, and not before (R22, R86, R87; log 4). -/
def Obligations.IdleStepIsOneTick : Prop :=
  (∀ (s : State) (e : Instr), e ∈ s.dueEvents ↔ s.Due e)
  ∧ (∀ s : State, s.pending = [] → s.dueEvents ≠ [] →
      ∃ e n, e ∈ s.dueEvents ∧ step s = .next { s with pending := [e], freeCount := n })
  ∧ (∀ s : State, s.pending = [] → s.dueEvents = [] → step s = .next (s.elapse 1))
  ∧ (∀ s : State, s.elapse 0 = s ∧ ∀ n, s.elapse (n + 1) = (s.elapse n).elapse 1)
  ∧ (∀ s : State, s.timer.running = true → s.timer.tick < s.timer.len →
      (s.elapse s.timer.toBoundary).Due .periodBoundary
        ∧ ∀ k, k < s.timer.toBoundary → ¬ (s.elapse k).Due .periodBoundary)
  ∧ (∀ (s : State) (i : Fin 4), (s.prot.inputs.get i).canTrip s.node.state = true →
      (s.prot.inputs.get i).count ≤ (s.prot.inputs.get i).entry.filter.toNat →
      (s.elapse (s.prot.inputs.get i).toTrip).Due (.trip i)
        ∧ ∀ k, k < (s.prot.inputs.get i).toTrip → ¬ (s.elapse k).Due (.trip i))
  ∧ ∀ s : State, ∃ t, s.elapse 1 = t ∧ t = { s with timer := t.timer, prot := t.prot, gen := t.gen, load := t.load }
      ∧ (s.timer.running = false ∨ s.timer.wrapDue = true → t.timer = s.timer)
      ∧ (s.timer.running = true → s.timer.wrapDue = false →
          (s.timer.tick + 1 < s.timer.len → t.timer = { s.timer with tick := s.timer.tick + 1 })
          ∧ (s.timer.tick + 1 = s.timer.len → t.timer = { s.timer with wrapDue := true }))
      ∧ (∀ g, t.prot.groups.get g =
          { s.prot.groups.get g with
            timer :=
              if (s.node.state = .armed ∨ s.node.state = .run) ∧ (s.prot.groups.get g).state = .timedOff then
                (s.prot.groups.get g).timer - 1
              else (s.prot.groups.get g).timer })
      ∧ (∀ c, t.gen.get c = { s.gen.get c with dead := (s.gen.get c).dead.map fun d => d - 1 })
      ∧ (s.load.state = .idle → t.load = s.load)
      ∧ (s.load.state = .receiving → t.load = { s.load with gap := s.load.gap - 1 })
      ∧ (s.load.state = .checking → t.load = { s.load with checkLeft := s.load.checkLeft - 1 })
      ∧ (∀ i,
          let x := s.prot.inputs.get i
          let y := t.prot.inputs.get i
          y.entry = x.entry ∧ y.pin = x.pin
          ∧ (x.detecting s.node.state = false →
              y.count = 0 ∧ y.blank = 0 ∧ y.blanked = false ∧ y.episode = false)
          ∧ (x.detecting s.node.state = true →
              y.blank = x.blank - 1 ∧ y.blanked = decide (1 < x.blank)
              ∧ (x.asserted = false → y.count = 0 ∧ y.episode = false)
              ∧ (x.asserted = true → y.episode = x.episode)
              ∧ (x.asserted = true → x.blanked = true → y.count = 0)
              ∧ (x.asserted = true → x.blanked = false → x.episode = true → y.count = x.count)
              ∧ (x.asserted = true → x.blanked = false → x.episode = false →
                  y.count = min x.entry.filter.toNat (x.count + 1))))

/-- A boundary in SAFE: the period number advances and L is reloaded; no other block does anything at it, and its ticks have
passed (R23, R37). A stopped timer has no boundary (log 11). -/
def Obligations.BoundaryInSafe : Prop :=
  (∀ s : State, s.timer.running = true → s.node.state = .safe → s.bank.commit = none →
    exec .periodBoundary s = .next s.nextPeriod
      ∧ s.nextPeriod = { s.elapse s.timer.toBoundary with timer := s.nextPeriod.timer })
  ∧ (∀ s : State, s.timer.running = false → exec .periodBoundary s = .next s)

/-- A boundary in ARMED that is not into the start period and is not lost: heads for the new period are removed and, for
setpoint-driven channels, recorded; the groups do their work; nothing is driven (R30, R35, R51, R94, R98). -/
def Obligations.BoundaryInArmed : Prop :=
  ∀ s : State, s.timer.running = true → s.node.state = .armed → s.node.start ≠ some (s.timer.period + 1) →
    let w := s.nextPeriod
    let m := w.bank.activeImage
    s.node.loss + 1 < imageLossTimeout m →
    ∃ t, exec .periodBoundary s = .next t
      ∧ t = { w with node := s.nodeAtBoundary, queue := t.queue, prot := t.prot }
      ∧ w.GroupsTurned t ∧ t.prot.inputs = w.prot.inputs
      ∧ ∀ c,
          ((∀ x ∈ (s.queue.get c).records.head?, x.target ≠ s.timer.period + 1) → t.queue.get c = s.queue.get c)
          ∧ (∀ x rest, (s.queue.get c).records = x :: rest → x.target = s.timer.period + 1 →
              t.queue.get c =
                if channelPattern m c = .leading ∨ channelPattern m c = .trailing ∨ channelPattern m c = .centered then
                  { s.queue.get c with
                    records := rest, lastOn := x.onTime, lastPhase := x.phase.getD (channelPhase m c) }
                else { s.queue.get c with records := rest })

/-- The selection of a channel at a boundary in RUN, row by row of R52 (R53 to R57). -/
def Obligations.SelectionTable : Prop :=
  ∀ (q : ChannelQueue) (m : Memory) (c : Fin 6) (period : Word),
    let driven := channelPattern m c = .leading ∨ channelPattern m c = .trailing ∨ channelPattern m c = .centered
    let none' := ∀ x ∈ q.records.head?, x.target ≠ period
    (∀ x rest, driven → q.records = x :: rest → x.target = period →
      let phase := x.phase.getD (channelPhase m c)
      q.select m c period =
        { q := { records := rest, lastOn := x.onTime, lastPhase := phase, hold := 0, holdOff := false }
          handed := .use x.onTime phase, held := false, raises := false })
    ∧ (driven → none' → q.holdOff = true →
      q.select m c period = { q := q, handed := .holdOff, held := false, raises := false })
    ∧ (driven → none' → q.holdOff = false → q.hold < imageHoldLimit m →
      q.select m c period =
        { q := { q with hold := q.hold + 1 }, handed := .use q.lastOn q.lastPhase, held := true, raises := false })
    ∧ (driven → none' → q.holdOff = false → imageHoldLimit m ≤ q.hold → channelByte m c 10 = 0 →
      q.select m c period =
        { q := { q with hold := imageHoldLimit m, holdOff := true }
          handed := .holdOff, held := false, raises := false })
    ∧ (driven → none' → q.holdOff = false → imageHoldLimit m ≤ q.hold → channelByte m c 10 ≠ 0 →
      q.select m c period =
        { q := { q with hold := imageHoldLimit m }, handed := .holdOff, held := false, raises := true })
    ∧ (∀ x rest, ¬ driven → q.records = x :: rest → x.target = period →
      q.select m c period =
        { q := { q with records := rest, hold := 0, holdOff := false }
          handed := .nothing, held := false, raises := false })
    ∧ (¬ driven → none' →
      q.select m c period =
        { q := { q with hold := 0, holdOff := false }, handed := .nothing, held := false, raises := false })

/-- A boundary in RUN, the one into the start period among them, that is not lost and raises no hold limit: selections, new
plans, echo values, counts, groups and pins (R23, R30, R52, R54, R58, R64, R65, R68, R69, R71, R73, R80, R94, R98). The
fields of the channel records stand where section 11.5 says, the edge states with the codes of section 11.8. That an edge
state code which section 11.8 does not define reads as OFF is the model's choice (log 17, DESIGN CHOICE). -/
def Obligations.BoundaryInRun : Prop :=
  (∀ s : State, s.timer.running = true →
    s.node.state = .run ∨ s.node.state = .armed ∧ s.node.start = some (s.timer.period + 1) →
    let w := s.nextPeriod
    let m := w.bank.activeImage
    let L := w.timer.len
    s.node.loss + 1 < imageLossTimeout m → (∀ c, (s.selected c).raises = false) →
    ∃ t, exec .periodBoundary s = .next t
      ∧ t = { w with
          node := s.nodeAtBoundary, queue := t.queue, gen := t.gen, prot := t.prot
          counters :=
            (w.counters.add (channels.filter fun c => (s.selected c).held).length .holds).add
              (channels.map fun c =>
                match (s.selected c).handed with
                | .use onTime _ => clampCount (channelMin m c).toNat (channelMax m c).toNat L onTime.toNat
                | .holdOff => 0
                | .nothing => 0).sum .clamps }
      ∧ t.node.state = .run
      ∧ (∀ c, t.queue.get c = (s.selected c).q)
      ∧ (∀ c,
          let plan := (t.gen.get c).plan
          let echo := (t.gen.get c).echo
          (∀ onTime phase, (s.selected c).handed = .use onTime phase →
            let on := clamp (channelMin m c).toNat (channelMax m c).toNat L onTime.toNat
            plan = drivenPlan (channelPattern m c) L on phase.toNat ∧ echo = BitVec.ofNat 16 on)
          ∧ ((s.selected c).handed = .holdOff → plan = [⟨0, .off⟩] ∧ echo = 0xFFFF)
          ∧ ((s.selected c).handed = .nothing → channelPattern m c ≠ .fixed → plan = [⟨0, .off⟩] ∧ echo = 0xFFFF)
          ∧ ((s.selected c).handed = .nothing → channelPattern m c = .fixed →
              plan = fixedPlan (channelEdges m c) L ∧ echo = 0xFFFF)
          ∧ t.gen.get c =
            { plan := plan, closing := (s.closed c).level, output := (t.gen.get c).output, flag := none
              echo := echo, cur := 0
              dead :=
                if (s.closed c).level = levelOf plan 0 ∧ levelOf plan 0 ≠ .off then
                  (s.closed c).dead.filter fun d => d ≠ 0
                else if (s.closed c).level = .hi ∧ levelOf plan 0 = .lo
                    ∨ (s.closed c).level = .lo ∧ levelOf plan 0 = .hi then
                  (if channelDead m c = 0 then none else some (channelDead m c))
                else none })
      ∧ w.GroupsTurned t ∧ w.Driven t)
  ∧ (∀ (m : Memory) (c : Fin 6),
    let base := 16 + 24 * c.val
    (channelPattern m c = .leading ↔ m.read base = 0x01) ∧ (channelPattern m c = .trailing ↔ m.read base = 0x02)
    ∧ (channelPattern m c = .centered ↔ m.read base = 0x03) ∧ (channelPattern m c = .fixed ↔ m.read base = 0x04)
    ∧ channelDead m c = (m.readWord (base + 2)).toNat ∧ channelMin m c = m.readWord (base + 4)
    ∧ channelMax m c = m.readWord (base + 6)
    ∧ channelEdges m c = (List.range (min 4 (m.read (base + 11)).toNat)).map fun k =>
        { first := (m.readWord (base + (12 + 3 * k))).toNat
          level :=
            if m.read (base + (14 + 3 * k)) = 0x01 then .hi
            else if m.read (base + (14 + 3 * k)) = 0x02 then .lo
            else .off })

/-- A pending commit swaps the roles of the images at the boundary into its swap period and its cache record becomes DONE,
also when the boundary then sends the node to SAFE; at any other boundary that stays ARMED or RUN it waits (R16). -/
def Obligations.BoundarySwapsThePendingCommit : Prop :=
  ∀ s : State, s.timer.running = true → s.node.state = .armed ∨ s.node.state = .run →
    ∃ t, exec .periodBoundary s = .next t ∧ t.timer.period = s.timer.period + 1
      ∧ (∀ seq, s.bank.commit = some ⟨s.timer.period + 1, seq⟩ →
          t.bank =
            { s.bank with active := s.bank.active.other, cond := .valid, shadow := .editable, commit := none }
          ∧ t.mgmt = { s.mgmt with
              cache := s.mgmt.cache.map fun x =>
                if x.seq = seq ∧ x.kind = .commit ∧ x.status = .pending then { x with status := .done, data := [] }
                else x })
      ∧ ((∀ p ∈ s.bank.commit, p.period ≠ s.timer.period + 1) → t.node.state ≠ .safe →
          t.bank = s.bank ∧ t.mgmt = s.mgmt)

/-- A boundary that sends the node to SAFE, after the swap: by the loss test, or by the hold limit of the lowest-numbered
channel that raises it; each appends its record with the new period number and tick 0 (R33, R35, R56). -/
def Obligations.BoundaryEntersSafe : Prop :=
  (∀ s : State, s.timer.running = true → s.node.state = .armed ∨ s.node.state = .run →
    imageLossTimeout s.nextPeriod.bank.activeImage ≤ s.node.loss + 1 →
    let v := { s.nextPeriod with node := { s.node with loss := s.node.loss + 1 } }
    exec .periodBoundary s = .next
      { v.safeFrom .linkLoss with
        log := s.log.append ⟨0, .linkLoss, s.node.state, s.timer.period + 1, 0, none, none, none⟩ })
  ∧ (∀ (s : State) (c : Fin 6), s.timer.running = true →
    s.node.state = .run ∨ s.node.state = .armed ∧ s.node.start = some (s.timer.period + 1) →
    s.node.loss + 1 < imageLossTimeout s.nextPeriod.bank.activeImage →
    (s.selected c).raises = true → (∀ d, d < c → (s.selected d).raises = false) →
    let w := s.nextPeriod
    let v :=
      { w with
        node := s.nodeAtBoundary, queue := s.queue.mapIdx fun d _ => (s.selected d).q, prot := w.prot.boundary
        counters := w.counters.add (channels.filter fun d => (s.selected d).held).length .holds }
    exec .periodBoundary s = .next
      { v.safeFrom .holdLimit with
        log := s.log.append ⟨0, .holdLimit, .run, s.timer.period + 1, 0, none, none, some c⟩ })

/-! ## The Pattern Generator within a period -/

/-- A planned change in RUN: the channel's next interval comes into force, a direct change begins its dead time, a flag set
at an earlier tick is cleared (R70, R73, R76, R79). The ticks until it is due pass first (log 4). -/
def Obligations.PlannedChangeTakesTheNextInterval : Prop :=
  (∀ (s : State) (c : Fin 6) (a : Nat), s.node.state = .run → (s.gen.get c).nextChange = some a →
    let u := s.elapse (a - s.timer.tick)
    let g := u.gen.get c
    let prev := levelOf g.plan g.cur
    let next := levelOf g.plan (g.cur + 1)
    let left := channelDead s.bank.activeImage c - (u.timer.tick - a)
    ∃ t, exec (.plannedChange c) s = .next t
      ∧ t = { u with gen := t.gen, prot := t.prot } ∧ t.prot.groups = u.prot.groups
      ∧ (∀ d, d ≠ c → t.gen.get d = { u.gen.get d with output := (t.gen.get d).output })
      ∧ t.gen.get c =
          { g with
            cur := g.cur + 1
            dead :=
              if prev = .hi ∧ next = .lo ∨ prev = .lo ∧ next = .hi then (if left = 0 then none else some left)
              else none
            flag := g.flag.filter fun k => a ≤ k
            output := (t.gen.get c).output }
      ∧ u.Driven t)
  ∧ (∀ (s : State) (c : Fin 6), s.node.state ≠ .run ∨ (s.gen.get c).nextChange = none →
    exec (.plannedChange c) s = .next s)

/-- The end of a dead time in RUN: the run's side becomes active; a run whose next change, or whose period's end, comes in
the same tick shows no active tick (R70, R72; log 25). -/
def Obligations.DeadTimeEndShowsTheRun : Prop :=
  ∀ (s : State) (c : Fin 6),
    ((s.gen.get c).dead = none → exec (.deadTimeEnd c) s = .next s)
    ∧ (∀ r, (s.gen.get c).dead = some r →
        let u := s.elapse r
        let taken := s.node.state = .run ∧ u.timer.wrapDue = false
          ∧ ∀ a, (s.gen.get c).nextChange = some a → u.timer.tick < a
        (¬ taken → exec (.deadTimeEnd c) s = .next s)
        ∧ (taken → ∃ t, exec (.deadTimeEnd c) s = .next t
            ∧ t = { u with gen := t.gen, prot := t.prot } ∧ t.prot.groups = u.prot.groups
            ∧ (∀ d, d ≠ c → t.gen.get d = { u.gen.get d with output := (t.gen.get d).output })
            ∧ t.gen.get c = { u.gen.get c with dead := none, output := (t.gen.get c).output }
            ∧ u.Driven t))

/-- The unshifted plan of a setpoint-driven pattern, tick by tick (R66). -/
def Obligations.PlanOfPattern : Prop :=
  (∀ L on k : Nat, on ≤ L → k < L →
    planLevel (drivenPlan .leading L on 0) k = (if k < on then .hi else .lo)
    ∧ planLevel (drivenPlan .trailing L on 0) k = (if k < L - on then .lo else .hi)
    ∧ planLevel (drivenPlan .centered L on 0) k
        = (if k < (L - on) / 2 then .lo else if k < (L - on) / 2 + on then .hi else .lo))
  ∧ (∀ (p : Pattern) (L on : Nat), p = .leading ∨ p = .trailing ∨ p = .centered → 0 < L → on ≤ L →
    (drivenPlan p L on 0).head?.map Interval.first = some 0
    ∧ (drivenPlan p L on 0).Pairwise (fun a b => a.first < b.first)
    ∧ (∀ x ∈ drivenPlan p L on 0, x.first < L ∧ x.level ≠ .off)
    ∧ drivenPlan p L 0 0 = [⟨0, .lo⟩] ∧ drivenPlan p L L 0 = [⟨0, .hi⟩])

/-- A phase shifts the plan: the state at tick k is the unshifted state at tick (k − p) mod L, in at most three intervals
with adjacent states joined (R67); and a FIXED plan is the state of the latest edge that occurs, the last one before the
first (R69). -/
def Obligations.PlanShiftedAndFixed : Prop :=
  (∀ (p : Pattern) (L on phase : Nat), p = .leading ∨ p = .trailing ∨ p = .centered → 0 < L → on ≤ L →
    (drivenPlan p L on phase).length ≤ 3
    ∧ (drivenPlan p L on phase).head?.map Interval.first = some 0
    ∧ (drivenPlan p L on phase).Pairwise (fun a b => a.first < b.first)
    ∧ (drivenPlan p L on phase).IsChain (fun a b => a.level ≠ b.level)
    ∧ (∀ k, k < L →
        planLevel (drivenPlan p L on phase) k = planLevel (drivenPlan p L on 0) ((k + L - phase % L) % L)))
  ∧ (∀ (edges : List Interval) (L k : Nat), edges.Pairwise (fun a b => a.first < b.first) → k < L →
    let occur := edges.filter fun e => e.first < L
    (occur = [] → fixedPlan edges L = [⟨0, .off⟩])
    ∧ (∀ e ∈ (occur.filter fun e => e.first ≤ k).getLast?, planLevel (fixedPlan edges L) k = e.level)
    ∧ ((occur.filter fun e => e.first ≤ k) = [] →
        ∀ e ∈ occur.getLast?, planLevel (fixedPlan edges L) k = e.level))

/-- The clamp in two steps, how many of them change the value, and that the result stays within L and the maximum
(R65). -/
def Obligations.ClampTakesTwoSteps : Prop :=
  ∀ lo hi L on : Nat, lo ≤ hi →
    let first := if on < lo then lo else if hi < on then hi else on
    let second := if L < first then L else first
    clamp lo hi L on = second ∧ second ≤ L ∧ second ≤ hi
    ∧ clampCount lo hi L on = (if first ≠ on then 1 else 0) + (if second ≠ first then 1 else 0)

/-! ## Trips, restores and pins -/

/-- A trip acts on its group by the tables of R90 to R92 and may escalate it (R97); it sets the input's episode flag and is
counted or recorded (R87, R103); the pins follow in the same tick (R75). -/
def Obligations.TripActsOnItsGroup : Prop :=
  ∀ (s : State) (i : Fin 4) (g : Fin 2), (s.prot.inputs.get i).canTrip s.node.state = true →
    (s.prot.inputs.get i).entry.group = some g →
    let x := s.prot.inputs.get i
    let u := s.elapse x.toTrip
    let v := { u with
      prot := { u.prot with
        inputs := u.prot.inputs.modify i fun y => { y with count := y.entry.filter.toNat, episode := true } } }
    let old := u.prot.groups.get g
    let esc := if old.state = .enabled then min 255 (old.esc + 1) else old.esc
    let up := old.state = .enabled ∧ x.entry.action ≠ .latch ∧ old.entry.e ≠ 0 ∧ old.entry.e.toNat ≤ esc
    let note (l : FaultLog) (cause : FaultCause) : FaultLog :=
      l.append ⟨0, cause, s.node.state, u.timer.period, u.timer.tick, some g, some i, none⟩
    ∃ t, exec (.trip i) s = .next t
      ∧ t = { u with prot := t.prot, gen := t.gen, counters := t.counters, log := t.log }
      ∧ (∀ h, h ≠ g → t.prot.groups.get h = u.prot.groups.get h)
      ∧ (∀ c, t.gen.get c = { u.gen.get c with output := (t.gen.get c).output })
      ∧ v.Driven t
      ∧ (x.entry.action = .cycle →
          t.counters = s.counters.add 1 (if g = 0 then .cycleTripsG0 else .cycleTripsG1)
          ∧ t.log = (if up then note s.log .escalated else s.log)
          ∧ t.prot.groups.get g =
              { old with
                state := if up then .latched else if old.state = .enabled then .cycleOff else old.state
                timer := if up then 0 else old.timer
                esc := esc })
      ∧ (x.entry.action = .timed →
          t.counters = s.counters
          ∧ t.log = (if up then note (note s.log .tripTimed) .escalated else note s.log .tripTimed)
          ∧ t.prot.groups.get g =
              { old with
                state := if up ∨ old.state = .latched then .latched else .timedOff
                timer := if up then 0 else if old.state = .latched then old.timer else x.entry.delay.toNat
                esc := esc })
      ∧ (x.entry.action = .latch →
          t.counters = s.counters ∧ t.log = note s.log .tripLatch
          ∧ t.prot.groups.get g =
              { old with
                state := .latched
                timer := if old.state = .latched then old.timer else 0
                esc := esc })

/-- The events of the pins: the levels of trip inputs and of DRV_OK, and which level of a pin is ASSERTED. A fall of DRV_OK
in ARMED and RUN enters SAFE with its record; elsewhere it changes its level alone (R36, R84, R87, R88). That a fall with
DRV_OK low already changes nothing is the model's choice (log 11, DESIGN CHOICE). -/
def Obligations.PinEvents : Prop :=
  (∀ x : TripInput, x.asserted = true ↔
    x.entry.polarity = .activeLow ∧ x.pin = false ∨ x.entry.polarity = .activeHigh ∧ x.pin = true)
  ∧ (∀ (s : State) (i : Fin 4),
    ∃ t, exec (.tripInputAssertion i) s = .next t ∧ t = { s with prot := { s.prot with inputs := t.prot.inputs } }
      ∧ (∀ j, j ≠ i → t.prot.inputs.get j = s.prot.inputs.get j)
      ∧ (t.prot.inputs.get i).asserted = true
      ∧ t.prot.inputs.get i = { s.prot.inputs.get i with pin := (t.prot.inputs.get i).pin })
  ∧ (∀ (s : State) (i : Fin 4),
    ∃ t, exec (.assertionEpisodeEnd i) s = .next t ∧ t = { s with prot := { s.prot with inputs := t.prot.inputs } }
      ∧ (∀ j, j ≠ i → t.prot.inputs.get j = s.prot.inputs.get j)
      ∧ (t.prot.inputs.get i).asserted = false
      ∧ t.prot.inputs.get i =
          { s.prot.inputs.get i with pin := (t.prot.inputs.get i).pin, count := 0, episode := false })
  ∧ (∀ s : State, exec .drvOkRise s = .next { s with pins := { s.pins with drvOk := true } })
  ∧ (∀ s : State, s.pins.drvOk = false → exec .drvOkFall s = .next s)
  ∧ (∀ s : State, s.pins.drvOk = true → s.node.state ≠ .armed → s.node.state ≠ .run →
    exec .drvOkFall s = .next { s with pins := { s.pins with drvOk := false } })
  ∧ (∀ s : State, s.pins.drvOk = true → s.node.state = .armed ∨ s.node.state = .run →
    exec .drvOkFall s = .next
      { s.safeFrom .supplyLoss with
        pins := { s.pins with drvOk := false }
        log := s.log.append
          ⟨0, .supplyLoss, s.node.state, s.timer.period, s.timer.tick, none, none, none⟩ })

/-- The expiry of a restore timer: with a TIMED input of the group ASSERTED the timer takes the longest delay of those inputs;
with none the group is ENABLED, in RUN with the flags of its channels set (R95, R76). -/
def Obligations.RestoreTimerExpires : Prop :=
  ∀ (s : State) (g : Fin 2), s.node.state = .armed ∨ s.node.state = .run →
    (s.prot.groups.get g).state = .timedOff →
    let u := s.elapse (s.prot.groups.get g).timer
    let holds (i : Fin 4) := (s.prot.inputs.get i).entry.group = some g
      ∧ (s.prot.inputs.get i).entry.action = .timed ∧ (s.prot.inputs.get i).asserted = true
    ((∃ i, holds i) →
      ∃ t, exec (.restoreTimerExpiry g) s = .next t
        ∧ t = { u with prot := { u.prot with groups := t.prot.groups } }
        ∧ (∀ h, h ≠ g → t.prot.groups.get h = u.prot.groups.get h)
        ∧ ∃ i, holds i ∧ (∀ j, holds j → (s.prot.inputs.get j).entry.delay.toNat
              ≤ (s.prot.inputs.get i).entry.delay.toNat)
          ∧ t.prot.groups.get g = { u.prot.groups.get g with timer := (s.prot.inputs.get i).entry.delay.toNat })
    ∧ ((∀ i, ¬ holds i) →
      ∃ t, exec (.restoreTimerExpiry g) s = .next t
        ∧ t = { u with prot := t.prot, gen := t.gen }
        ∧ (∀ h, t.prot.groups.get h =
            if h = g then { u.prot.groups.get h with state := .enabled } else u.prot.groups.get h)
        ∧ (∀ c, t.gen.get c =
            { u.gen.get c with
              flag := if s.node.state = .run ∧ s.groupOf c = g then some u.timer.tick else (u.gen.get c).flag
              output := (t.gen.get c).output })
        ∧ u.Driven t)

/-- An append is decided on the fault log count: with fewer than 8 records it takes the next number and the tail, with 8 it is
dropped and counted; nothing else of the node changes (R107). -/
def Obligations.FaultLogAppendStoresOrDrops : Prop :=
  (∀ (l : FaultLog) (r : FaultRecord),
    (l.records.length ≤ 7 →
      l.append r = { records := l.records ++ [{ r with number := l.next }], next := l.next + 1, dropped := l.dropped })
    ∧ (l.records.length = 8 → l.append r = { l with dropped := if l.dropped < 255 then l.dropped + 1 else 255 }))
  ∧ (∀ (s : State) (cause : FaultCause) (g : Option (Fin 2)) (i : Option (Fin 4)) (c : Option (Fin 6)),
    s.record cause g i c =
      { s with log := s.log.append ⟨0, cause, s.node.state, s.timer.period, s.timer.tick, g, i, c⟩ })

/-! ## Invariants that every step keeps -/

/-- The images stay in canonical form and the delay line at 20 symbols. -/
def Obligations.StorageInvariant : Prop :=
  ∀ s t : State, s.StorageOk → step s = .next t → t.StorageOk

/-- Every gate shows what R73 says: no gate is active outside RUN or with its group not ENABLED. The pins are the output
state: GHc is active in HI, GLc in LO, neither in OFF (R63). -/
def Obligations.GatesInvariant : Prop :=
  (∀ s t : State, s.GatesOk → step s = .next t → t.GatesOk)
  ∧ ∀ (s : State) (c : Fin 6),
      (s.gateHigh c = true ↔ (s.gen.get c).output = .hi) ∧ (s.gateLow c = true ↔ (s.gen.get c).output = .lo)

/-- The address is 0 exactly in UNADDRESSED (R128). -/
def Obligations.AddressInvariant : Prop := ∀ s t : State, s.AddressOk → step s = .next t → t.AddressOk

/-- The counters stay within 16 bits and the fault log keeps its law (R106, R112). -/
def Obligations.RecordsInvariant : Prop := ∀ s t : State, s.RecordsOk → step s = .next t → t.RecordsOk

/-- A group is off for a time only in ARMED and RUN, its timer runs only in TIMED_OFF, nothing is held where detection does
not run, and every entry and count stays in its range (R82 to R85, R89, R100). FAULT_N is asserted exactly in SAFE and with
a group LATCHED (R102). -/
def Obligations.GroupsInvariant : Prop :=
  (∀ s t : State, s.GroupsOk → step s = .next t → t.GroupsOk)
  ∧ ∀ s : State, s.faultAsserted = true ↔ s.node.state = .safe ∨ ∃ g, (s.prot.groups.get g).state = .latched

/-- Timer, node state, banks, load job and replay cache keep the laws that tie them together (R6, R18, R22, R26, R37, R155,
R165). -/
def Obligations.ControlInvariant : Prop := ∀ s t : State, s.ControlOk → step s = .next t → t.ControlOk

/-- The setpoint queues keep their law (R43, R44, R54, R59). -/
def Obligations.QueuesInvariant : Prop := ∀ s t : State, s.QueuesOk → step s = .next t → t.QueuesOk
end

