-- ==== Sys2Proof/Laws/State.lean ====
section
/-! SUPPORT. One lemma per field per named update of State, so that no later proof unfolds a record update; and
the get-after-modify lemmas of the fixed-size records. -/

namespace Sys2Proof

variable {α β : Type}

theorem Six.get_modify (x : Six α) (c d : Fin 6) (f : α → α) :
    (x.modify c f).get d = if d = c then f (x.get d) else x.get d := by
  fin_cases c <;> fin_cases d <;> rfl

@[simp] theorem Six.get_modify_self (x : Six α) (c : Fin 6) (f : α → α) : (x.modify c f).get c = f (x.get c) := by
  simp [Six.get_modify]

@[simp] theorem Six.get_mapIdx (x : Six α) (f : Fin 6 → α → β) (c : Fin 6) :
    (x.mapIdx f).get c = f c (x.get c) := by
  fin_cases c <;> rfl

@[simp] theorem Six.get_map (x : Six α) (f : α → β) (c : Fin 6) : (x.map f).get c = f (x.get c) := by
  fin_cases c <;> rfl

@[simp] theorem Six.get_all (a : α) (c : Fin 6) : (Six.all a).get c = a := by
  fin_cases c <;> rfl

/-- Six values are equal when each channel's is. -/
theorem Six.ext_get {x y : Six α} (h : ∀ c, x.get c = y.get c) : x = y := by
  have h0 := h 0
  have h1 := h 1
  have h2 := h 2
  have h3 := h 3
  have h4 := h 4
  have h5 := h 5
  cases x
  cases y
  simp_all [Six.get]

theorem Four.get_modify (x : Four α) (i j : Fin 4) (f : α → α) :
    (x.modify i f).get j = if j = i then f (x.get j) else x.get j := by
  fin_cases i <;> fin_cases j <;> rfl

@[simp] theorem Four.get_modify_self (x : Four α) (i : Fin 4) (f : α → α) :
    (x.modify i f).get i = f (x.get i) := by
  simp [Four.get_modify]

@[simp] theorem Four.get_map (x : Four α) (f : α → β) (i : Fin 4) : (x.map f).get i = f (x.get i) := by
  fin_cases i <;> rfl

@[simp] theorem Four.get_all (a : α) (i : Fin 4) : (Four.all a).get i = a := by
  fin_cases i <;> rfl

theorem Two.get_modify (x : Two α) (g k : Fin 2) (f : α → α) :
    (x.modify g f).get k = if k = g then f (x.get k) else x.get k := by
  fin_cases g <;> fin_cases k <;> rfl

@[simp] theorem Two.get_modify_self (x : Two α) (g : Fin 2) (f : α → α) :
    (x.modify g f).get g = f (x.get g) := by
  simp [Two.get_modify]

@[simp] theorem Two.get_map (x : Two α) (f : α → β) (g : Fin 2) : (x.map f).get g = f (x.get g) := by
  fin_cases g <;> rfl

@[simp] theorem Two.get_mapIdx (x : Two α) (f : Fin 2 → α → β) (g : Fin 2) :
    (x.mapIdx f).get g = f g (x.get g) := by
  fin_cases g <;> rfl

@[simp] theorem Two.get_all (a : α) (g : Fin 2) : (Two.all a).get g = a := by
  fin_cases g <;> rfl

end Sys2Proof

namespace Sys2Proof.Machine

variable (s : State)


/-! ### State.countN -/

@[simp] theorem State.countN_pins (id : CounterId) (n : Nat) : (s.countN id n).pins = s.pins := rfl
@[simp] theorem State.countN_relay (id : CounterId) (n : Nat) : (s.countN id n).relay = s.relay := rfl
@[simp] theorem State.countN_roll (id : CounterId) (n : Nat) : (s.countN id n).roll = s.roll := rfl
@[simp] theorem State.countN_slots (id : CounterId) (n : Nat) : (s.countN id n).slots = s.slots := rfl
@[simp] theorem State.countN_queue (id : CounterId) (n : Nat) : (s.countN id n).queue = s.queue := rfl
@[simp] theorem State.countN_bank (id : CounterId) (n : Nat) : (s.countN id n).bank = s.bank := rfl
@[simp] theorem State.countN_timer (id : CounterId) (n : Nat) : (s.countN id n).timer = s.timer := rfl
@[simp] theorem State.countN_node (id : CounterId) (n : Nat) : (s.countN id n).node = s.node := rfl
@[simp] theorem State.countN_gen (id : CounterId) (n : Nat) : (s.countN id n).gen = s.gen := rfl
@[simp] theorem State.countN_prot (id : CounterId) (n : Nat) : (s.countN id n).prot = s.prot := rfl
@[simp] theorem State.countN_log (id : CounterId) (n : Nat) : (s.countN id n).log = s.log := rfl
@[simp] theorem State.countN_mgmt (id : CounterId) (n : Nat) : (s.countN id n).mgmt = s.mgmt := rfl
@[simp] theorem State.countN_load (id : CounterId) (n : Nat) : (s.countN id n).load = s.load := rfl
@[simp] theorem State.countN_pending (id : CounterId) (n : Nat) : (s.countN id n).pending = s.pending := rfl
@[simp] theorem State.countN_freeCount (id : CounterId) (n : Nat) : (s.countN id n).freeCount = s.freeCount := rfl

/-! ### State.count -/

@[simp] theorem State.count_pins (id : CounterId) : (s.count id).pins = s.pins := rfl
@[simp] theorem State.count_relay (id : CounterId) : (s.count id).relay = s.relay := rfl
@[simp] theorem State.count_roll (id : CounterId) : (s.count id).roll = s.roll := rfl
@[simp] theorem State.count_slots (id : CounterId) : (s.count id).slots = s.slots := rfl
@[simp] theorem State.count_queue (id : CounterId) : (s.count id).queue = s.queue := rfl
@[simp] theorem State.count_bank (id : CounterId) : (s.count id).bank = s.bank := rfl
@[simp] theorem State.count_timer (id : CounterId) : (s.count id).timer = s.timer := rfl
@[simp] theorem State.count_node (id : CounterId) : (s.count id).node = s.node := rfl
@[simp] theorem State.count_gen (id : CounterId) : (s.count id).gen = s.gen := rfl
@[simp] theorem State.count_prot (id : CounterId) : (s.count id).prot = s.prot := rfl
@[simp] theorem State.count_log (id : CounterId) : (s.count id).log = s.log := rfl
@[simp] theorem State.count_mgmt (id : CounterId) : (s.count id).mgmt = s.mgmt := rfl
@[simp] theorem State.count_load (id : CounterId) : (s.count id).load = s.load := rfl
@[simp] theorem State.count_pending (id : CounterId) : (s.count id).pending = s.pending := rfl
@[simp] theorem State.count_freeCount (id : CounterId) : (s.count id).freeCount = s.freeCount := rfl

/-! ### State.record -/

@[simp] theorem State.record_pins (c : FaultCause) (g : Option (Fin 2)) (i : Option (Fin 4)) (k : Option (Fin 6)) :
    (s.record c g i k).pins = s.pins := rfl
@[simp] theorem State.record_relay (c : FaultCause) (g : Option (Fin 2)) (i : Option (Fin 4)) (k : Option (Fin 6)) :
    (s.record c g i k).relay = s.relay := rfl
@[simp] theorem State.record_roll (c : FaultCause) (g : Option (Fin 2)) (i : Option (Fin 4)) (k : Option (Fin 6)) :
    (s.record c g i k).roll = s.roll := rfl
@[simp] theorem State.record_slots (c : FaultCause) (g : Option (Fin 2)) (i : Option (Fin 4)) (k : Option (Fin 6)) :
    (s.record c g i k).slots = s.slots := rfl
@[simp] theorem State.record_queue (c : FaultCause) (g : Option (Fin 2)) (i : Option (Fin 4)) (k : Option (Fin 6)) :
    (s.record c g i k).queue = s.queue := rfl
@[simp] theorem State.record_bank (c : FaultCause) (g : Option (Fin 2)) (i : Option (Fin 4)) (k : Option (Fin 6)) :
    (s.record c g i k).bank = s.bank := rfl
@[simp] theorem State.record_timer (c : FaultCause) (g : Option (Fin 2)) (i : Option (Fin 4)) (k : Option (Fin 6)) :
    (s.record c g i k).timer = s.timer := rfl
@[simp] theorem State.record_node (c : FaultCause) (g : Option (Fin 2)) (i : Option (Fin 4)) (k : Option (Fin 6)) :
    (s.record c g i k).node = s.node := rfl
@[simp] theorem State.record_gen (c : FaultCause) (g : Option (Fin 2)) (i : Option (Fin 4)) (k : Option (Fin 6)) :
    (s.record c g i k).gen = s.gen := rfl
@[simp] theorem State.record_prot (c : FaultCause) (g : Option (Fin 2)) (i : Option (Fin 4)) (k : Option (Fin 6)) :
    (s.record c g i k).prot = s.prot := rfl
@[simp] theorem State.record_counters (c : FaultCause) (g : Option (Fin 2)) (i : Option (Fin 4)) (k : Option (Fin 6)) :
    (s.record c g i k).counters = s.counters := rfl
@[simp] theorem State.record_mgmt (c : FaultCause) (g : Option (Fin 2)) (i : Option (Fin 4)) (k : Option (Fin 6)) :
    (s.record c g i k).mgmt = s.mgmt := rfl
@[simp] theorem State.record_load (c : FaultCause) (g : Option (Fin 2)) (i : Option (Fin 4)) (k : Option (Fin 6)) :
    (s.record c g i k).load = s.load := rfl
@[simp] theorem State.record_pending (c : FaultCause) (g : Option (Fin 2)) (i : Option (Fin 4)) (k : Option (Fin 6)) :
    (s.record c g i k).pending = s.pending := rfl
@[simp] theorem State.record_freeCount (c : FaultCause) (g : Option (Fin 2)) (i : Option (Fin 4)) (k : Option (Fin 6)) :
    (s.record c g i k).freeCount = s.freeCount := rfl

/-! ### State.flush -/

@[simp] theorem State.flush_pins : (s.flush).pins = s.pins := rfl
@[simp] theorem State.flush_relay : (s.flush).relay = s.relay := rfl
@[simp] theorem State.flush_roll : (s.flush).roll = s.roll := rfl
@[simp] theorem State.flush_bank : (s.flush).bank = s.bank := rfl
@[simp] theorem State.flush_timer : (s.flush).timer = s.timer := rfl
@[simp] theorem State.flush_node : (s.flush).node = s.node := rfl
@[simp] theorem State.flush_gen : (s.flush).gen = s.gen := rfl
@[simp] theorem State.flush_prot : (s.flush).prot = s.prot := rfl
@[simp] theorem State.flush_log : (s.flush).log = s.log := rfl
@[simp] theorem State.flush_counters : (s.flush).counters = s.counters := rfl
@[simp] theorem State.flush_mgmt : (s.flush).mgmt = s.mgmt := rfl
@[simp] theorem State.flush_load : (s.flush).load = s.load := rfl
@[simp] theorem State.flush_pending : (s.flush).pending = s.pending := rfl
@[simp] theorem State.flush_freeCount : (s.flush).freeCount = s.freeCount := rfl

/-! ### State.cancelCommit -/

@[simp] theorem State.cancelCommit_pins :
    (s.cancelCommit).pins = s.pins := by unfold State.cancelCommit; split <;> rfl
@[simp] theorem State.cancelCommit_relay :
    (s.cancelCommit).relay = s.relay := by unfold State.cancelCommit; split <;> rfl
@[simp] theorem State.cancelCommit_roll :
    (s.cancelCommit).roll = s.roll := by unfold State.cancelCommit; split <;> rfl
@[simp] theorem State.cancelCommit_slots :
    (s.cancelCommit).slots = s.slots := by unfold State.cancelCommit; split <;> rfl
@[simp] theorem State.cancelCommit_queue :
    (s.cancelCommit).queue = s.queue := by unfold State.cancelCommit; split <;> rfl
@[simp] theorem State.cancelCommit_timer :
    (s.cancelCommit).timer = s.timer := by unfold State.cancelCommit; split <;> rfl
@[simp] theorem State.cancelCommit_node :
    (s.cancelCommit).node = s.node := by unfold State.cancelCommit; split <;> rfl
@[simp] theorem State.cancelCommit_gen : (s.cancelCommit).gen = s.gen := by unfold State.cancelCommit; split <;> rfl
@[simp] theorem State.cancelCommit_prot :
    (s.cancelCommit).prot = s.prot := by unfold State.cancelCommit; split <;> rfl
@[simp] theorem State.cancelCommit_log : (s.cancelCommit).log = s.log := by unfold State.cancelCommit; split <;> rfl
@[simp] theorem State.cancelCommit_counters :
    (s.cancelCommit).counters = s.counters := by unfold State.cancelCommit; split <;> rfl
@[simp] theorem State.cancelCommit_load :
    (s.cancelCommit).load = s.load := by unfold State.cancelCommit; split <;> rfl
@[simp] theorem State.cancelCommit_pending :
    (s.cancelCommit).pending = s.pending := by unfold State.cancelCommit; split <;> rfl
@[simp] theorem State.cancelCommit_freeCount :
    (s.cancelCommit).freeCount = s.freeCount := by unfold State.cancelCommit; split <;> rfl

/-! ### State.withSlots -/

@[simp] theorem State.withSlots_pins (f : SlotParser → SlotParser) : (s.withSlots f).pins = s.pins := rfl
@[simp] theorem State.withSlots_relay (f : SlotParser → SlotParser) : (s.withSlots f).relay = s.relay := rfl
@[simp] theorem State.withSlots_roll (f : SlotParser → SlotParser) : (s.withSlots f).roll = s.roll := rfl
@[simp] theorem State.withSlots_queue (f : SlotParser → SlotParser) : (s.withSlots f).queue = s.queue := rfl
@[simp] theorem State.withSlots_bank (f : SlotParser → SlotParser) : (s.withSlots f).bank = s.bank := rfl
@[simp] theorem State.withSlots_timer (f : SlotParser → SlotParser) : (s.withSlots f).timer = s.timer := rfl
@[simp] theorem State.withSlots_node (f : SlotParser → SlotParser) : (s.withSlots f).node = s.node := rfl
@[simp] theorem State.withSlots_gen (f : SlotParser → SlotParser) : (s.withSlots f).gen = s.gen := rfl
@[simp] theorem State.withSlots_prot (f : SlotParser → SlotParser) : (s.withSlots f).prot = s.prot := rfl
@[simp] theorem State.withSlots_log (f : SlotParser → SlotParser) : (s.withSlots f).log = s.log := rfl
@[simp] theorem State.withSlots_counters (f : SlotParser → SlotParser) : (s.withSlots f).counters = s.counters := rfl
@[simp] theorem State.withSlots_mgmt (f : SlotParser → SlotParser) : (s.withSlots f).mgmt = s.mgmt := rfl
@[simp] theorem State.withSlots_load (f : SlotParser → SlotParser) : (s.withSlots f).load = s.load := rfl
@[simp] theorem State.withSlots_pending (f : SlotParser → SlotParser) : (s.withSlots f).pending = s.pending := rfl
@[simp] theorem State.withSlots_freeCount (f : SlotParser → SlotParser) :
    (s.withSlots f).freeCount = s.freeCount := rfl

/-! ### State.markMalformed -/

@[simp] theorem State.markMalformed_pins : (s.markMalformed).pins = s.pins := rfl
@[simp] theorem State.markMalformed_roll : (s.markMalformed).roll = s.roll := rfl
@[simp] theorem State.markMalformed_slots : (s.markMalformed).slots = s.slots := rfl
@[simp] theorem State.markMalformed_queue : (s.markMalformed).queue = s.queue := rfl
@[simp] theorem State.markMalformed_bank : (s.markMalformed).bank = s.bank := rfl
@[simp] theorem State.markMalformed_timer : (s.markMalformed).timer = s.timer := rfl
@[simp] theorem State.markMalformed_node : (s.markMalformed).node = s.node := rfl
@[simp] theorem State.markMalformed_gen : (s.markMalformed).gen = s.gen := rfl
@[simp] theorem State.markMalformed_prot : (s.markMalformed).prot = s.prot := rfl
@[simp] theorem State.markMalformed_log : (s.markMalformed).log = s.log := rfl
@[simp] theorem State.markMalformed_counters : (s.markMalformed).counters = s.counters := rfl
@[simp] theorem State.markMalformed_mgmt : (s.markMalformed).mgmt = s.mgmt := rfl
@[simp] theorem State.markMalformed_load : (s.markMalformed).load = s.load := rfl
@[simp] theorem State.markMalformed_pending : (s.markMalformed).pending = s.pending := rfl
@[simp] theorem State.markMalformed_freeCount : (s.markMalformed).freeCount = s.freeCount := rfl

/-! ### State.withRoll -/

@[simp] theorem State.withRoll_pins (f : RollCall → RollCall) : (s.withRoll f).pins = s.pins := rfl
@[simp] theorem State.withRoll_relay (f : RollCall → RollCall) : (s.withRoll f).relay = s.relay := rfl
@[simp] theorem State.withRoll_slots (f : RollCall → RollCall) : (s.withRoll f).slots = s.slots := rfl
@[simp] theorem State.withRoll_queue (f : RollCall → RollCall) : (s.withRoll f).queue = s.queue := rfl
@[simp] theorem State.withRoll_bank (f : RollCall → RollCall) : (s.withRoll f).bank = s.bank := rfl
@[simp] theorem State.withRoll_timer (f : RollCall → RollCall) : (s.withRoll f).timer = s.timer := rfl
@[simp] theorem State.withRoll_node (f : RollCall → RollCall) : (s.withRoll f).node = s.node := rfl
@[simp] theorem State.withRoll_gen (f : RollCall → RollCall) : (s.withRoll f).gen = s.gen := rfl
@[simp] theorem State.withRoll_prot (f : RollCall → RollCall) : (s.withRoll f).prot = s.prot := rfl
@[simp] theorem State.withRoll_log (f : RollCall → RollCall) : (s.withRoll f).log = s.log := rfl
@[simp] theorem State.withRoll_counters (f : RollCall → RollCall) : (s.withRoll f).counters = s.counters := rfl
@[simp] theorem State.withRoll_mgmt (f : RollCall → RollCall) : (s.withRoll f).mgmt = s.mgmt := rfl
@[simp] theorem State.withRoll_load (f : RollCall → RollCall) : (s.withRoll f).load = s.load := rfl
@[simp] theorem State.withRoll_pending (f : RollCall → RollCall) : (s.withRoll f).pending = s.pending := rfl
@[simp] theorem State.withRoll_freeCount (f : RollCall → RollCall) : (s.withRoll f).freeCount = s.freeCount := rfl

/-! ### State.withMgmt -/

@[simp] theorem State.withMgmt_pins (f : MgmtFrame → MgmtFrame) : (s.withMgmt f).pins = s.pins := rfl
@[simp] theorem State.withMgmt_relay (f : MgmtFrame → MgmtFrame) : (s.withMgmt f).relay = s.relay := rfl
@[simp] theorem State.withMgmt_roll (f : MgmtFrame → MgmtFrame) : (s.withMgmt f).roll = s.roll := rfl
@[simp] theorem State.withMgmt_slots (f : MgmtFrame → MgmtFrame) : (s.withMgmt f).slots = s.slots := rfl
@[simp] theorem State.withMgmt_queue (f : MgmtFrame → MgmtFrame) : (s.withMgmt f).queue = s.queue := rfl
@[simp] theorem State.withMgmt_bank (f : MgmtFrame → MgmtFrame) : (s.withMgmt f).bank = s.bank := rfl
@[simp] theorem State.withMgmt_timer (f : MgmtFrame → MgmtFrame) : (s.withMgmt f).timer = s.timer := rfl
@[simp] theorem State.withMgmt_node (f : MgmtFrame → MgmtFrame) : (s.withMgmt f).node = s.node := rfl
@[simp] theorem State.withMgmt_gen (f : MgmtFrame → MgmtFrame) : (s.withMgmt f).gen = s.gen := rfl
@[simp] theorem State.withMgmt_prot (f : MgmtFrame → MgmtFrame) : (s.withMgmt f).prot = s.prot := rfl
@[simp] theorem State.withMgmt_log (f : MgmtFrame → MgmtFrame) : (s.withMgmt f).log = s.log := rfl
@[simp] theorem State.withMgmt_counters (f : MgmtFrame → MgmtFrame) : (s.withMgmt f).counters = s.counters := rfl
@[simp] theorem State.withMgmt_load (f : MgmtFrame → MgmtFrame) : (s.withMgmt f).load = s.load := rfl
@[simp] theorem State.withMgmt_pending (f : MgmtFrame → MgmtFrame) : (s.withMgmt f).pending = s.pending := rfl
@[simp] theorem State.withMgmt_freeCount (f : MgmtFrame → MgmtFrame) : (s.withMgmt f).freeCount = s.freeCount := rfl

/-! ### State.prepare -/

@[simp] theorem State.prepare_pins (r : Reply) : (s.prepare r).pins = s.pins := rfl
@[simp] theorem State.prepare_relay (r : Reply) : (s.prepare r).relay = s.relay := rfl
@[simp] theorem State.prepare_roll (r : Reply) : (s.prepare r).roll = s.roll := rfl
@[simp] theorem State.prepare_slots (r : Reply) : (s.prepare r).slots = s.slots := rfl
@[simp] theorem State.prepare_queue (r : Reply) : (s.prepare r).queue = s.queue := rfl
@[simp] theorem State.prepare_bank (r : Reply) : (s.prepare r).bank = s.bank := rfl
@[simp] theorem State.prepare_timer (r : Reply) : (s.prepare r).timer = s.timer := rfl
@[simp] theorem State.prepare_node (r : Reply) : (s.prepare r).node = s.node := rfl
@[simp] theorem State.prepare_gen (r : Reply) : (s.prepare r).gen = s.gen := rfl
@[simp] theorem State.prepare_prot (r : Reply) : (s.prepare r).prot = s.prot := rfl
@[simp] theorem State.prepare_log (r : Reply) : (s.prepare r).log = s.log := rfl
@[simp] theorem State.prepare_counters (r : Reply) : (s.prepare r).counters = s.counters := rfl
@[simp] theorem State.prepare_load (r : Reply) : (s.prepare r).load = s.load := rfl
@[simp] theorem State.prepare_pending (r : Reply) : (s.prepare r).pending = s.pending := rfl
@[simp] theorem State.prepare_freeCount (r : Reply) : (s.prepare r).freeCount = s.freeCount := rfl

/-! ### State.forward -/

@[simp] theorem State.forward_pins (x : Symbol) : (s.forward x).pins = s.pins := rfl
@[simp] theorem State.forward_roll (x : Symbol) : (s.forward x).roll = s.roll := rfl
@[simp] theorem State.forward_slots (x : Symbol) : (s.forward x).slots = s.slots := rfl
@[simp] theorem State.forward_queue (x : Symbol) : (s.forward x).queue = s.queue := rfl
@[simp] theorem State.forward_bank (x : Symbol) : (s.forward x).bank = s.bank := rfl
@[simp] theorem State.forward_timer (x : Symbol) : (s.forward x).timer = s.timer := rfl
@[simp] theorem State.forward_node (x : Symbol) : (s.forward x).node = s.node := rfl
@[simp] theorem State.forward_gen (x : Symbol) : (s.forward x).gen = s.gen := rfl
@[simp] theorem State.forward_prot (x : Symbol) : (s.forward x).prot = s.prot := rfl
@[simp] theorem State.forward_log (x : Symbol) : (s.forward x).log = s.log := rfl
@[simp] theorem State.forward_counters (x : Symbol) : (s.forward x).counters = s.counters := rfl
@[simp] theorem State.forward_mgmt (x : Symbol) : (s.forward x).mgmt = s.mgmt := rfl
@[simp] theorem State.forward_load (x : Symbol) : (s.forward x).load = s.load := rfl
@[simp] theorem State.forward_pending (x : Symbol) : (s.forward x).pending = s.pending := rfl
@[simp] theorem State.forward_freeCount (x : Symbol) : (s.forward x).freeCount = s.freeCount := rfl

/-! ### State.withFrame -/

@[simp] theorem State.withFrame_pins (f : FrameCheck → FrameCheck) : (s.withFrame f).pins = s.pins := rfl
@[simp] theorem State.withFrame_roll (f : FrameCheck → FrameCheck) : (s.withFrame f).roll = s.roll := rfl
@[simp] theorem State.withFrame_slots (f : FrameCheck → FrameCheck) : (s.withFrame f).slots = s.slots := rfl
@[simp] theorem State.withFrame_queue (f : FrameCheck → FrameCheck) : (s.withFrame f).queue = s.queue := rfl
@[simp] theorem State.withFrame_bank (f : FrameCheck → FrameCheck) : (s.withFrame f).bank = s.bank := rfl
@[simp] theorem State.withFrame_timer (f : FrameCheck → FrameCheck) : (s.withFrame f).timer = s.timer := rfl
@[simp] theorem State.withFrame_node (f : FrameCheck → FrameCheck) : (s.withFrame f).node = s.node := rfl
@[simp] theorem State.withFrame_gen (f : FrameCheck → FrameCheck) : (s.withFrame f).gen = s.gen := rfl
@[simp] theorem State.withFrame_prot (f : FrameCheck → FrameCheck) : (s.withFrame f).prot = s.prot := rfl
@[simp] theorem State.withFrame_log (f : FrameCheck → FrameCheck) : (s.withFrame f).log = s.log := rfl
@[simp] theorem State.withFrame_counters (f : FrameCheck → FrameCheck) : (s.withFrame f).counters = s.counters := rfl
@[simp] theorem State.withFrame_mgmt (f : FrameCheck → FrameCheck) : (s.withFrame f).mgmt = s.mgmt := rfl
@[simp] theorem State.withFrame_load (f : FrameCheck → FrameCheck) : (s.withFrame f).load = s.load := rfl
@[simp] theorem State.withFrame_pending (f : FrameCheck → FrameCheck) : (s.withFrame f).pending = s.pending := rfl
@[simp] theorem State.withFrame_freeCount (f : FrameCheck → FrameCheck) :
    (s.withFrame f).freeCount = s.freeCount := rfl

/-! ### State.startFrame -/

@[simp] theorem State.startFrame_pins : (s.startFrame).pins = s.pins := rfl
@[simp] theorem State.startFrame_roll : (s.startFrame).roll = s.roll := rfl
@[simp] theorem State.startFrame_slots : (s.startFrame).slots = s.slots := rfl
@[simp] theorem State.startFrame_queue : (s.startFrame).queue = s.queue := rfl
@[simp] theorem State.startFrame_bank : (s.startFrame).bank = s.bank := rfl
@[simp] theorem State.startFrame_timer : (s.startFrame).timer = s.timer := rfl
@[simp] theorem State.startFrame_node : (s.startFrame).node = s.node := rfl
@[simp] theorem State.startFrame_gen : (s.startFrame).gen = s.gen := rfl
@[simp] theorem State.startFrame_prot : (s.startFrame).prot = s.prot := rfl
@[simp] theorem State.startFrame_log : (s.startFrame).log = s.log := rfl
@[simp] theorem State.startFrame_counters : (s.startFrame).counters = s.counters := rfl
@[simp] theorem State.startFrame_mgmt : (s.startFrame).mgmt = s.mgmt := rfl
@[simp] theorem State.startFrame_load : (s.startFrame).load = s.load := rfl
@[simp] theorem State.startFrame_pending : (s.startFrame).pending = s.pending := rfl
@[simp] theorem State.startFrame_freeCount : (s.startFrame).freeCount = s.freeCount := rfl

/-! ### State.drive -/

@[simp] theorem State.drive_pins : (s.drive).pins = s.pins := rfl
@[simp] theorem State.drive_relay : (s.drive).relay = s.relay := rfl
@[simp] theorem State.drive_roll : (s.drive).roll = s.roll := rfl
@[simp] theorem State.drive_slots : (s.drive).slots = s.slots := rfl
@[simp] theorem State.drive_queue : (s.drive).queue = s.queue := rfl
@[simp] theorem State.drive_bank : (s.drive).bank = s.bank := rfl
@[simp] theorem State.drive_timer : (s.drive).timer = s.timer := rfl
@[simp] theorem State.drive_node : (s.drive).node = s.node := rfl
@[simp] theorem State.drive_log : (s.drive).log = s.log := rfl
@[simp] theorem State.drive_counters : (s.drive).counters = s.counters := rfl
@[simp] theorem State.drive_mgmt : (s.drive).mgmt = s.mgmt := rfl
@[simp] theorem State.drive_load : (s.drive).load = s.load := rfl
@[simp] theorem State.drive_pending : (s.drive).pending = s.pending := rfl
@[simp] theorem State.drive_freeCount : (s.drive).freeCount = s.freeCount := rfl

/-! ### State.quietGates -/

@[simp] theorem State.quietGates_pins : (s.quietGates).pins = s.pins := rfl
@[simp] theorem State.quietGates_relay : (s.quietGates).relay = s.relay := rfl
@[simp] theorem State.quietGates_roll : (s.quietGates).roll = s.roll := rfl
@[simp] theorem State.quietGates_slots : (s.quietGates).slots = s.slots := rfl
@[simp] theorem State.quietGates_queue : (s.quietGates).queue = s.queue := rfl
@[simp] theorem State.quietGates_bank : (s.quietGates).bank = s.bank := rfl
@[simp] theorem State.quietGates_timer : (s.quietGates).timer = s.timer := rfl
@[simp] theorem State.quietGates_node : (s.quietGates).node = s.node := rfl
@[simp] theorem State.quietGates_prot : (s.quietGates).prot = s.prot := rfl
@[simp] theorem State.quietGates_log : (s.quietGates).log = s.log := rfl
@[simp] theorem State.quietGates_counters : (s.quietGates).counters = s.counters := rfl
@[simp] theorem State.quietGates_mgmt : (s.quietGates).mgmt = s.mgmt := rfl
@[simp] theorem State.quietGates_load : (s.quietGates).load = s.load := rfl
@[simp] theorem State.quietGates_pending : (s.quietGates).pending = s.pending := rfl
@[simp] theorem State.quietGates_freeCount : (s.quietGates).freeCount = s.freeCount := rfl

/-! ### State.blankEchoes -/

@[simp] theorem State.blankEchoes_pins : (s.blankEchoes).pins = s.pins := rfl
@[simp] theorem State.blankEchoes_relay : (s.blankEchoes).relay = s.relay := rfl
@[simp] theorem State.blankEchoes_roll : (s.blankEchoes).roll = s.roll := rfl
@[simp] theorem State.blankEchoes_slots : (s.blankEchoes).slots = s.slots := rfl
@[simp] theorem State.blankEchoes_queue : (s.blankEchoes).queue = s.queue := rfl
@[simp] theorem State.blankEchoes_bank : (s.blankEchoes).bank = s.bank := rfl
@[simp] theorem State.blankEchoes_timer : (s.blankEchoes).timer = s.timer := rfl
@[simp] theorem State.blankEchoes_node : (s.blankEchoes).node = s.node := rfl
@[simp] theorem State.blankEchoes_prot : (s.blankEchoes).prot = s.prot := rfl
@[simp] theorem State.blankEchoes_log : (s.blankEchoes).log = s.log := rfl
@[simp] theorem State.blankEchoes_counters : (s.blankEchoes).counters = s.counters := rfl
@[simp] theorem State.blankEchoes_mgmt : (s.blankEchoes).mgmt = s.mgmt := rfl
@[simp] theorem State.blankEchoes_load : (s.blankEchoes).load = s.load := rfl
@[simp] theorem State.blankEchoes_pending : (s.blankEchoes).pending = s.pending := rfl
@[simp] theorem State.blankEchoes_freeCount : (s.blankEchoes).freeCount = s.freeCount := rfl

/-! ### State.holdUntilEdge -/

@[simp] theorem State.holdUntilEdge_pins (g : Fin 2) :
    (s.holdUntilEdge g).pins = s.pins := by unfold State.holdUntilEdge; split <;> rfl
@[simp] theorem State.holdUntilEdge_relay (g : Fin 2) :
    (s.holdUntilEdge g).relay = s.relay := by unfold State.holdUntilEdge; split <;> rfl
@[simp] theorem State.holdUntilEdge_roll (g : Fin 2) :
    (s.holdUntilEdge g).roll = s.roll := by unfold State.holdUntilEdge; split <;> rfl
@[simp] theorem State.holdUntilEdge_slots (g : Fin 2) :
    (s.holdUntilEdge g).slots = s.slots := by unfold State.holdUntilEdge; split <;> rfl
@[simp] theorem State.holdUntilEdge_queue (g : Fin 2) :
    (s.holdUntilEdge g).queue = s.queue := by unfold State.holdUntilEdge; split <;> rfl
@[simp] theorem State.holdUntilEdge_bank (g : Fin 2) :
    (s.holdUntilEdge g).bank = s.bank := by unfold State.holdUntilEdge; split <;> rfl
@[simp] theorem State.holdUntilEdge_timer (g : Fin 2) :
    (s.holdUntilEdge g).timer = s.timer := by unfold State.holdUntilEdge; split <;> rfl
@[simp] theorem State.holdUntilEdge_node (g : Fin 2) :
    (s.holdUntilEdge g).node = s.node := by unfold State.holdUntilEdge; split <;> rfl
@[simp] theorem State.holdUntilEdge_prot (g : Fin 2) :
    (s.holdUntilEdge g).prot = s.prot := by unfold State.holdUntilEdge; split <;> rfl
@[simp] theorem State.holdUntilEdge_log (g : Fin 2) :
    (s.holdUntilEdge g).log = s.log := by unfold State.holdUntilEdge; split <;> rfl
@[simp] theorem State.holdUntilEdge_counters (g : Fin 2) :
    (s.holdUntilEdge g).counters = s.counters := by unfold State.holdUntilEdge; split <;> rfl
@[simp] theorem State.holdUntilEdge_mgmt (g : Fin 2) :
    (s.holdUntilEdge g).mgmt = s.mgmt := by unfold State.holdUntilEdge; split <;> rfl
@[simp] theorem State.holdUntilEdge_load (g : Fin 2) :
    (s.holdUntilEdge g).load = s.load := by unfold State.holdUntilEdge; split <;> rfl
@[simp] theorem State.holdUntilEdge_pending (g : Fin 2) :
    (s.holdUntilEdge g).pending = s.pending := by unfold State.holdUntilEdge; split <;> rfl
@[simp] theorem State.holdUntilEdge_freeCount (g : Fin 2) :
    (s.holdUntilEdge g).freeCount = s.freeCount := by unfold State.holdUntilEdge; split <;> rfl

/-! ### State.modifyGroup -/

@[simp] theorem State.modifyGroup_pins (g : Fin 2) (f : ProtGroup → ProtGroup) :
    (s.modifyGroup g f).pins = s.pins := rfl
@[simp] theorem State.modifyGroup_relay (g : Fin 2) (f : ProtGroup → ProtGroup) :
    (s.modifyGroup g f).relay = s.relay := rfl
@[simp] theorem State.modifyGroup_roll (g : Fin 2) (f : ProtGroup → ProtGroup) :
    (s.modifyGroup g f).roll = s.roll := rfl
@[simp] theorem State.modifyGroup_slots (g : Fin 2) (f : ProtGroup → ProtGroup) :
    (s.modifyGroup g f).slots = s.slots := rfl
@[simp] theorem State.modifyGroup_queue (g : Fin 2) (f : ProtGroup → ProtGroup) :
    (s.modifyGroup g f).queue = s.queue := rfl
@[simp] theorem State.modifyGroup_bank (g : Fin 2) (f : ProtGroup → ProtGroup) :
    (s.modifyGroup g f).bank = s.bank := rfl
@[simp] theorem State.modifyGroup_timer (g : Fin 2) (f : ProtGroup → ProtGroup) :
    (s.modifyGroup g f).timer = s.timer := rfl
@[simp] theorem State.modifyGroup_node (g : Fin 2) (f : ProtGroup → ProtGroup) :
    (s.modifyGroup g f).node = s.node := rfl
@[simp] theorem State.modifyGroup_gen (g : Fin 2) (f : ProtGroup → ProtGroup) : (s.modifyGroup g f).gen = s.gen := rfl
@[simp] theorem State.modifyGroup_log (g : Fin 2) (f : ProtGroup → ProtGroup) : (s.modifyGroup g f).log = s.log := rfl
@[simp] theorem State.modifyGroup_counters (g : Fin 2) (f : ProtGroup → ProtGroup) :
    (s.modifyGroup g f).counters = s.counters := rfl
@[simp] theorem State.modifyGroup_mgmt (g : Fin 2) (f : ProtGroup → ProtGroup) :
    (s.modifyGroup g f).mgmt = s.mgmt := rfl
@[simp] theorem State.modifyGroup_load (g : Fin 2) (f : ProtGroup → ProtGroup) :
    (s.modifyGroup g f).load = s.load := rfl
@[simp] theorem State.modifyGroup_pending (g : Fin 2) (f : ProtGroup → ProtGroup) :
    (s.modifyGroup g f).pending = s.pending := rfl
@[simp] theorem State.modifyGroup_freeCount (g : Fin 2) (f : ProtGroup → ProtGroup) :
    (s.modifyGroup g f).freeCount = s.freeCount := rfl

/-! ### State.wrapTimer -/

@[simp] theorem State.wrapTimer_pins : (s.wrapTimer).pins = s.pins := rfl
@[simp] theorem State.wrapTimer_relay : (s.wrapTimer).relay = s.relay := rfl
@[simp] theorem State.wrapTimer_roll : (s.wrapTimer).roll = s.roll := rfl
@[simp] theorem State.wrapTimer_slots : (s.wrapTimer).slots = s.slots := rfl
@[simp] theorem State.wrapTimer_queue : (s.wrapTimer).queue = s.queue := rfl
@[simp] theorem State.wrapTimer_bank : (s.wrapTimer).bank = s.bank := rfl
@[simp] theorem State.wrapTimer_node : (s.wrapTimer).node = s.node := rfl
@[simp] theorem State.wrapTimer_gen : (s.wrapTimer).gen = s.gen := rfl
@[simp] theorem State.wrapTimer_prot : (s.wrapTimer).prot = s.prot := rfl
@[simp] theorem State.wrapTimer_log : (s.wrapTimer).log = s.log := rfl
@[simp] theorem State.wrapTimer_counters : (s.wrapTimer).counters = s.counters := rfl
@[simp] theorem State.wrapTimer_mgmt : (s.wrapTimer).mgmt = s.mgmt := rfl
@[simp] theorem State.wrapTimer_load : (s.wrapTimer).load = s.load := rfl
@[simp] theorem State.wrapTimer_pending : (s.wrapTimer).pending = s.pending := rfl
@[simp] theorem State.wrapTimer_freeCount : (s.wrapTimer).freeCount = s.freeCount := rfl

/-! ### State.toConfig -/

@[simp] theorem State.toConfig_pins : (s.toConfig).pins = s.pins := rfl
@[simp] theorem State.toConfig_relay : (s.toConfig).relay = s.relay := rfl
@[simp] theorem State.toConfig_roll : (s.toConfig).roll = s.roll := rfl
@[simp] theorem State.toConfig_queue : (s.toConfig).queue = s.queue := rfl
@[simp] theorem State.toConfig_bank : (s.toConfig).bank = s.bank := rfl
@[simp] theorem State.toConfig_gen : (s.toConfig).gen = s.gen := rfl
@[simp] theorem State.toConfig_log : (s.toConfig).log = s.log := rfl
@[simp] theorem State.toConfig_counters : (s.toConfig).counters = s.counters := rfl
@[simp] theorem State.toConfig_mgmt : (s.toConfig).mgmt = s.mgmt := rfl
@[simp] theorem State.toConfig_load : (s.toConfig).load = s.load := rfl
@[simp] theorem State.toConfig_pending : (s.toConfig).pending = s.pending := rfl
@[simp] theorem State.toConfig_freeCount : (s.toConfig).freeCount = s.freeCount := rfl

/-! ### State.endJob -/

@[simp] theorem State.endJob_pins : (s.endJob).pins = s.pins := rfl
@[simp] theorem State.endJob_relay : (s.endJob).relay = s.relay := rfl
@[simp] theorem State.endJob_roll : (s.endJob).roll = s.roll := rfl
@[simp] theorem State.endJob_slots : (s.endJob).slots = s.slots := rfl
@[simp] theorem State.endJob_queue : (s.endJob).queue = s.queue := rfl
@[simp] theorem State.endJob_timer : (s.endJob).timer = s.timer := rfl
@[simp] theorem State.endJob_node : (s.endJob).node = s.node := rfl
@[simp] theorem State.endJob_gen : (s.endJob).gen = s.gen := rfl
@[simp] theorem State.endJob_prot : (s.endJob).prot = s.prot := rfl
@[simp] theorem State.endJob_log : (s.endJob).log = s.log := rfl
@[simp] theorem State.endJob_counters : (s.endJob).counters = s.counters := rfl
@[simp] theorem State.endJob_mgmt : (s.endJob).mgmt = s.mgmt := rfl
@[simp] theorem State.endJob_pending : (s.endJob).pending = s.pending := rfl
@[simp] theorem State.endJob_freeCount : (s.endJob).freeCount = s.freeCount := rfl

/-! ### State.swapAt -/

@[simp] theorem State.swapAt_pins (p : Word) : (s.swapAt p).pins = s.pins := by
  unfold State.swapAt
  split
  · rfl
  · split <;> rfl
@[simp] theorem State.swapAt_relay (p : Word) : (s.swapAt p).relay = s.relay := by
  unfold State.swapAt
  split
  · rfl
  · split <;> rfl
@[simp] theorem State.swapAt_roll (p : Word) : (s.swapAt p).roll = s.roll := by
  unfold State.swapAt
  split
  · rfl
  · split <;> rfl
@[simp] theorem State.swapAt_slots (p : Word) : (s.swapAt p).slots = s.slots := by
  unfold State.swapAt
  split
  · rfl
  · split <;> rfl
@[simp] theorem State.swapAt_queue (p : Word) : (s.swapAt p).queue = s.queue := by
  unfold State.swapAt
  split
  · rfl
  · split <;> rfl
@[simp] theorem State.swapAt_timer (p : Word) : (s.swapAt p).timer = s.timer := by
  unfold State.swapAt
  split
  · rfl
  · split <;> rfl
@[simp] theorem State.swapAt_node (p : Word) : (s.swapAt p).node = s.node := by
  unfold State.swapAt
  split
  · rfl
  · split <;> rfl
@[simp] theorem State.swapAt_gen (p : Word) : (s.swapAt p).gen = s.gen := by
  unfold State.swapAt
  split
  · rfl
  · split <;> rfl
@[simp] theorem State.swapAt_prot (p : Word) : (s.swapAt p).prot = s.prot := by
  unfold State.swapAt
  split
  · rfl
  · split <;> rfl
@[simp] theorem State.swapAt_log (p : Word) : (s.swapAt p).log = s.log := by
  unfold State.swapAt
  split
  · rfl
  · split <;> rfl
@[simp] theorem State.swapAt_counters (p : Word) : (s.swapAt p).counters = s.counters := by
  unfold State.swapAt
  split
  · rfl
  · split <;> rfl
@[simp] theorem State.swapAt_load (p : Word) : (s.swapAt p).load = s.load := by
  unfold State.swapAt
  split
  · rfl
  · split <;> rfl
@[simp] theorem State.swapAt_pending (p : Word) : (s.swapAt p).pending = s.pending := by
  unfold State.swapAt
  split
  · rfl
  · split <;> rfl
@[simp] theorem State.swapAt_freeCount (p : Word) : (s.swapAt p).freeCount = s.freeCount := by
  unfold State.swapAt
  split
  · rfl
  · split <;> rfl

/-! ### State.elapse -/

@[simp] theorem State.elapse_pins (n : Nat) : (s.elapse n).pins = s.pins := by unfold State.elapse; split <;> rfl
@[simp] theorem State.elapse_relay (n : Nat) : (s.elapse n).relay = s.relay := by unfold State.elapse; split <;> rfl
@[simp] theorem State.elapse_roll (n : Nat) : (s.elapse n).roll = s.roll := by unfold State.elapse; split <;> rfl
@[simp] theorem State.elapse_slots (n : Nat) : (s.elapse n).slots = s.slots := by unfold State.elapse; split <;> rfl
@[simp] theorem State.elapse_queue (n : Nat) : (s.elapse n).queue = s.queue := by unfold State.elapse; split <;> rfl
@[simp] theorem State.elapse_bank (n : Nat) : (s.elapse n).bank = s.bank := by unfold State.elapse; split <;> rfl
@[simp] theorem State.elapse_node (n : Nat) : (s.elapse n).node = s.node := by unfold State.elapse; split <;> rfl
@[simp] theorem State.elapse_log (n : Nat) : (s.elapse n).log = s.log := by unfold State.elapse; split <;> rfl
@[simp] theorem State.elapse_counters (n : Nat) :
    (s.elapse n).counters = s.counters := by unfold State.elapse; split <;> rfl
@[simp] theorem State.elapse_mgmt (n : Nat) : (s.elapse n).mgmt = s.mgmt := by unfold State.elapse; split <;> rfl
@[simp] theorem State.elapse_pending (n : Nat) :
    (s.elapse n).pending = s.pending := by unfold State.elapse; split <;> rfl
@[simp] theorem State.elapse_freeCount (n : Nat) :
    (s.elapse n).freeCount = s.freeCount := by unfold State.elapse; split <;> rfl

/-! ### State.enterSafe -/

@[simp] theorem State.enterSafe_pins (c : SafeCause) (r : Option FaultCause) (k : Option (Fin 6)) : (s.enterSafe c r k).pins = s.pins := by
  unfold State.enterSafe
  split
  · cases r <;> simp
  · rfl
@[simp] theorem State.enterSafe_relay (c : SafeCause) (r : Option FaultCause) (k : Option (Fin 6)) : (s.enterSafe c r k).relay = s.relay := by
  unfold State.enterSafe
  split
  · cases r <;> simp
  · rfl
@[simp] theorem State.enterSafe_roll (c : SafeCause) (r : Option FaultCause) (k : Option (Fin 6)) : (s.enterSafe c r k).roll = s.roll := by
  unfold State.enterSafe
  split
  · cases r <;> simp
  · rfl
@[simp] theorem State.enterSafe_counters (c : SafeCause) (r : Option FaultCause) (k : Option (Fin 6)) : (s.enterSafe c r k).counters = s.counters := by
  unfold State.enterSafe
  split
  · cases r <;> simp
  · rfl
@[simp] theorem State.enterSafe_load (c : SafeCause) (r : Option FaultCause) (k : Option (Fin 6)) : (s.enterSafe c r k).load = s.load := by
  unfold State.enterSafe
  split
  · cases r <;> simp
  · rfl
@[simp] theorem State.enterSafe_pending (c : SafeCause) (r : Option FaultCause) (k : Option (Fin 6)) : (s.enterSafe c r k).pending = s.pending := by
  unfold State.enterSafe
  split
  · cases r <;> simp
  · rfl
@[simp] theorem State.enterSafe_freeCount (c : SafeCause) (r : Option FaultCause) (k : Option (Fin 6)) : (s.enterSafe c r k).freeCount = s.freeCount := by
  unfold State.enterSafe
  split
  · cases r <;> simp
  · rfl

/-! ### State.arm -/

@[simp] theorem State.arm_pins (n0 : Word) (t : Nat) (p : Word) : (s.arm n0 t p).pins = s.pins := rfl
@[simp] theorem State.arm_relay (n0 : Word) (t : Nat) (p : Word) : (s.arm n0 t p).relay = s.relay := rfl
@[simp] theorem State.arm_roll (n0 : Word) (t : Nat) (p : Word) : (s.arm n0 t p).roll = s.roll := rfl
@[simp] theorem State.arm_slots (n0 : Word) (t : Nat) (p : Word) : (s.arm n0 t p).slots = s.slots := rfl
@[simp] theorem State.arm_bank (n0 : Word) (t : Nat) (p : Word) : (s.arm n0 t p).bank = s.bank := rfl
@[simp] theorem State.arm_log (n0 : Word) (t : Nat) (p : Word) : (s.arm n0 t p).log = s.log := rfl
@[simp] theorem State.arm_counters (n0 : Word) (t : Nat) (p : Word) : (s.arm n0 t p).counters = s.counters := rfl
@[simp] theorem State.arm_mgmt (n0 : Word) (t : Nat) (p : Word) : (s.arm n0 t p).mgmt = s.mgmt := rfl
@[simp] theorem State.arm_load (n0 : Word) (t : Nat) (p : Word) : (s.arm n0 t p).load = s.load := rfl
@[simp] theorem State.arm_pending (n0 : Word) (t : Nat) (p : Word) : (s.arm n0 t p).pending = s.pending := rfl
@[simp] theorem State.arm_freeCount (n0 : Word) (t : Nat) (p : Word) : (s.arm n0 t p).freeCount = s.freeCount := rfl

/-! ### State.finishPlans -/

@[simp] theorem State.finishPlans_pins : (s.finishPlans).pins = s.pins := by unfold State.finishPlans; split <;> rfl
@[simp] theorem State.finishPlans_relay :
    (s.finishPlans).relay = s.relay := by unfold State.finishPlans; split <;> rfl
@[simp] theorem State.finishPlans_roll : (s.finishPlans).roll = s.roll := by unfold State.finishPlans; split <;> rfl
@[simp] theorem State.finishPlans_slots :
    (s.finishPlans).slots = s.slots := by unfold State.finishPlans; split <;> rfl
@[simp] theorem State.finishPlans_queue :
    (s.finishPlans).queue = s.queue := by unfold State.finishPlans; split <;> rfl
@[simp] theorem State.finishPlans_bank : (s.finishPlans).bank = s.bank := by unfold State.finishPlans; split <;> rfl
@[simp] theorem State.finishPlans_timer :
    (s.finishPlans).timer = s.timer := by unfold State.finishPlans; split <;> rfl
@[simp] theorem State.finishPlans_node : (s.finishPlans).node = s.node := by unfold State.finishPlans; split <;> rfl
@[simp] theorem State.finishPlans_prot : (s.finishPlans).prot = s.prot := by unfold State.finishPlans; split <;> rfl
@[simp] theorem State.finishPlans_log : (s.finishPlans).log = s.log := by unfold State.finishPlans; split <;> rfl
@[simp] theorem State.finishPlans_counters :
    (s.finishPlans).counters = s.counters := by unfold State.finishPlans; split <;> rfl
@[simp] theorem State.finishPlans_mgmt : (s.finishPlans).mgmt = s.mgmt := by unfold State.finishPlans; split <;> rfl
@[simp] theorem State.finishPlans_load : (s.finishPlans).load = s.load := by unfold State.finishPlans; split <;> rfl
@[simp] theorem State.finishPlans_pending :
    (s.finishPlans).pending = s.pending := by unfold State.finishPlans; split <;> rfl
@[simp] theorem State.finishPlans_freeCount :
    (s.finishPlans).freeCount = s.freeCount := by unfold State.finishPlans; split <;> rfl

/-! ### State.startEntry -/

@[simp] theorem State.startEntry_pins : (s.startEntry).pins = s.pins := by unfold State.startEntry; split <;> rfl
@[simp] theorem State.startEntry_relay : (s.startEntry).relay = s.relay := by unfold State.startEntry; split <;> rfl
@[simp] theorem State.startEntry_roll : (s.startEntry).roll = s.roll := by unfold State.startEntry; split <;> rfl
@[simp] theorem State.startEntry_slots : (s.startEntry).slots = s.slots := by unfold State.startEntry; split <;> rfl
@[simp] theorem State.startEntry_queue : (s.startEntry).queue = s.queue := by unfold State.startEntry; split <;> rfl
@[simp] theorem State.startEntry_bank : (s.startEntry).bank = s.bank := by unfold State.startEntry; split <;> rfl
@[simp] theorem State.startEntry_timer : (s.startEntry).timer = s.timer := by unfold State.startEntry; split <;> rfl
@[simp] theorem State.startEntry_gen : (s.startEntry).gen = s.gen := by unfold State.startEntry; split <;> rfl
@[simp] theorem State.startEntry_prot : (s.startEntry).prot = s.prot := by unfold State.startEntry; split <;> rfl
@[simp] theorem State.startEntry_log : (s.startEntry).log = s.log := by unfold State.startEntry; split <;> rfl
@[simp] theorem State.startEntry_counters :
    (s.startEntry).counters = s.counters := by unfold State.startEntry; split <;> rfl
@[simp] theorem State.startEntry_mgmt : (s.startEntry).mgmt = s.mgmt := by unfold State.startEntry; split <;> rfl
@[simp] theorem State.startEntry_load : (s.startEntry).load = s.load := by unfold State.startEntry; split <;> rfl
@[simp] theorem State.startEntry_pending :
    (s.startEntry).pending = s.pending := by unfold State.startEntry; split <;> rfl
@[simp] theorem State.startEntry_freeCount :
    (s.startEntry).freeCount = s.freeCount := by unfold State.startEntry; split <;> rfl

/-! ### State.choose -/

@[simp] theorem State.choose_pins (k : Byte) : (s.choose k).pins = s.pins := by
  unfold State.choose
  cases parserFor k s.node.state <;> rfl
@[simp] theorem State.choose_queue (k : Byte) : (s.choose k).queue = s.queue := by
  unfold State.choose
  cases parserFor k s.node.state <;> rfl
@[simp] theorem State.choose_bank (k : Byte) : (s.choose k).bank = s.bank := by
  unfold State.choose
  cases parserFor k s.node.state <;> rfl
@[simp] theorem State.choose_timer (k : Byte) : (s.choose k).timer = s.timer := by
  unfold State.choose
  cases parserFor k s.node.state <;> rfl
@[simp] theorem State.choose_node (k : Byte) : (s.choose k).node = s.node := by
  unfold State.choose
  cases parserFor k s.node.state <;> rfl
@[simp] theorem State.choose_gen (k : Byte) : (s.choose k).gen = s.gen := by
  unfold State.choose
  cases parserFor k s.node.state <;> rfl
@[simp] theorem State.choose_prot (k : Byte) : (s.choose k).prot = s.prot := by
  unfold State.choose
  cases parserFor k s.node.state <;> rfl
@[simp] theorem State.choose_log (k : Byte) : (s.choose k).log = s.log := by
  unfold State.choose
  cases parserFor k s.node.state <;> rfl
@[simp] theorem State.choose_counters (k : Byte) : (s.choose k).counters = s.counters := by
  unfold State.choose
  cases parserFor k s.node.state <;> rfl
@[simp] theorem State.choose_load (k : Byte) : (s.choose k).load = s.load := by
  unfold State.choose
  cases parserFor k s.node.state <;> rfl
@[simp] theorem State.choose_pending (k : Byte) : (s.choose k).pending = s.pending := by
  unfold State.choose
  cases parserFor k s.node.state <;> rfl
@[simp] theorem State.choose_freeCount (k : Byte) : (s.choose k).freeCount = s.freeCount := by
  unfold State.choose
  cases parserFor k s.node.state <;> rfl

/-! ### State.noteTrip -/

@[simp] theorem State.noteTrip_pins (i : Fin 4) (g : Fin 2) (a : TripAction) :
    (s.noteTrip i g a).pins = s.pins := by cases a <;> rfl
@[simp] theorem State.noteTrip_relay (i : Fin 4) (g : Fin 2) (a : TripAction) :
    (s.noteTrip i g a).relay = s.relay := by cases a <;> rfl
@[simp] theorem State.noteTrip_roll (i : Fin 4) (g : Fin 2) (a : TripAction) :
    (s.noteTrip i g a).roll = s.roll := by cases a <;> rfl
@[simp] theorem State.noteTrip_slots (i : Fin 4) (g : Fin 2) (a : TripAction) :
    (s.noteTrip i g a).slots = s.slots := by cases a <;> rfl
@[simp] theorem State.noteTrip_queue (i : Fin 4) (g : Fin 2) (a : TripAction) :
    (s.noteTrip i g a).queue = s.queue := by cases a <;> rfl
@[simp] theorem State.noteTrip_bank (i : Fin 4) (g : Fin 2) (a : TripAction) :
    (s.noteTrip i g a).bank = s.bank := by cases a <;> rfl
@[simp] theorem State.noteTrip_timer (i : Fin 4) (g : Fin 2) (a : TripAction) :
    (s.noteTrip i g a).timer = s.timer := by cases a <;> rfl
@[simp] theorem State.noteTrip_node (i : Fin 4) (g : Fin 2) (a : TripAction) :
    (s.noteTrip i g a).node = s.node := by cases a <;> rfl
@[simp] theorem State.noteTrip_gen (i : Fin 4) (g : Fin 2) (a : TripAction) :
    (s.noteTrip i g a).gen = s.gen := by cases a <;> rfl
@[simp] theorem State.noteTrip_prot (i : Fin 4) (g : Fin 2) (a : TripAction) :
    (s.noteTrip i g a).prot = s.prot := by cases a <;> rfl
@[simp] theorem State.noteTrip_mgmt (i : Fin 4) (g : Fin 2) (a : TripAction) :
    (s.noteTrip i g a).mgmt = s.mgmt := by cases a <;> rfl
@[simp] theorem State.noteTrip_load (i : Fin 4) (g : Fin 2) (a : TripAction) :
    (s.noteTrip i g a).load = s.load := by cases a <;> rfl
@[simp] theorem State.noteTrip_pending (i : Fin 4) (g : Fin 2) (a : TripAction) :
    (s.noteTrip i g a).pending = s.pending := by cases a <;> rfl
@[simp] theorem State.noteTrip_freeCount (i : Fin 4) (g : Fin 2) (a : TripAction) :
    (s.noteTrip i g a).freeCount = s.freeCount := by cases a <;> rfl

/-! ### State.adopt -/

@[simp] theorem State.adopt_pins (a : Byte) : (s.adopt a).pins = s.pins := by
  unfold State.adopt
  split <;> rfl
@[simp] theorem State.adopt_relay (a : Byte) : (s.adopt a).relay = s.relay := by
  unfold State.adopt
  split <;> rfl
@[simp] theorem State.adopt_slots (a : Byte) : (s.adopt a).slots = s.slots := by
  unfold State.adopt
  split <;> rfl
@[simp] theorem State.adopt_queue (a : Byte) : (s.adopt a).queue = s.queue := by
  unfold State.adopt
  split <;> rfl
@[simp] theorem State.adopt_bank (a : Byte) : (s.adopt a).bank = s.bank := by
  unfold State.adopt
  split <;> rfl
@[simp] theorem State.adopt_timer (a : Byte) : (s.adopt a).timer = s.timer := by
  unfold State.adopt
  split <;> rfl
@[simp] theorem State.adopt_gen (a : Byte) : (s.adopt a).gen = s.gen := by
  unfold State.adopt
  split <;> rfl
@[simp] theorem State.adopt_prot (a : Byte) : (s.adopt a).prot = s.prot := by
  unfold State.adopt
  split <;> rfl
@[simp] theorem State.adopt_log (a : Byte) : (s.adopt a).log = s.log := by
  unfold State.adopt
  split <;> rfl
@[simp] theorem State.adopt_counters (a : Byte) : (s.adopt a).counters = s.counters := by
  unfold State.adopt
  split <;> rfl
@[simp] theorem State.adopt_mgmt (a : Byte) : (s.adopt a).mgmt = s.mgmt := by
  unfold State.adopt
  split <;> rfl
@[simp] theorem State.adopt_load (a : Byte) : (s.adopt a).load = s.load := by
  unfold State.adopt
  split <;> rfl
@[simp] theorem State.adopt_pending (a : Byte) : (s.adopt a).pending = s.pending := by
  unfold State.adopt
  split <;> rfl
@[simp] theorem State.adopt_freeCount (a : Byte) : (s.adopt a).freeCount = s.freeCount := by
  unfold State.adopt
  split <;> rfl

end Sys2Proof.Machine
end

