-- ==== Sys2Proof/Laws/Node.lean ====
section
/-! SUPPORT. What the operations shared by the node's events do: entry into SAFE, driving the pins, the passing of
ticks, the completion of cache records. -/

namespace Sys2Proof.Machine

theorem NodeState.live_iff (n : NodeState) : n.live = true ↔ n = .armed ∨ n = .run := by
  cases n <;> simp [NodeState.live]

theorem NodeState.not_live_iff (n : NodeState) : n.live = false ↔ n ≠ .armed ∧ n ≠ .run := by
  cases n <;> simp [NodeState.live]

/-- The fault log after an entry into SAFE (R33, R56). -/
def State.logAfter (s : State) (rec : Option FaultCause) (channel : Option (Fin 6)) : FaultLog :=
  match rec with
  | none => s.log
  | some r => s.log.append ⟨0, r, s.node.state, s.timer.period, s.timer.tick, none, none, channel⟩

/-- Everything an entry into SAFE does in ARMED and RUN. -/
theorem State.enterSafe_live (s : State) (cause : SafeCause) (rec : Option FaultCause) (channel : Option (Fin 6))
    (h : s.node.state.live = true) :
    s.enterSafe cause rec channel = { s.safeFrom cause with log := s.logAfter rec channel } := by
  obtain ⟨pins, relay, roll, slots, queue, bank, timer, node, gen, prot, log, counters, mgmt, load, pending, fc⟩ := s
  obtain ⟨a, b, c, d, e, commit⟩ := bank
  have h' : node.state.live = true := h
  simp only [State.enterSafe, h', if_true]
  cases rec <;> cases commit <;>
    simp [State.safeFrom, State.logAfter, State.cancelCommit, State.flush, State.quietGates, Protection.leaveLive,
      Management.complete, State.record] <;> refine ⟨rfl, ?_⟩ <;> first | rfl | exact ⟨rfl, rfl⟩

/-- Outside ARMED and RUN an entry into SAFE has no effect. -/
theorem State.enterSafe_idle (s : State) (cause : SafeCause) (rec : Option FaultCause) (channel : Option (Fin 6))
    (h : s.node.state.live = false) : s.enterSafe cause rec channel = s := by
  simp [State.enterSafe, h]

theorem channels_mem (c : Fin 6) : c ∈ channels := by fin_cases c <;> simp [channels]

theorem State.pinChange_iff (s : State) (g : Fin 2) :
    s.pinChange g = true ↔ ∃ c, s.groupOf c = g ∧ (s.gen.get c).output ≠ s.visible c := by
  simp [State.pinChange, channels_mem]

/-- What R73 shows of a channel does not depend on the output states it replaces. -/
theorem State.visible_congr (s t : State) (c : Fin 6) (hn : t.node.state = s.node.state) (hb : t.bank = s.bank)
    (hg : t.prot.groups = s.prot.groups) (hp : (t.gen.get c).plan = (s.gen.get c).plan)
    (hc : (t.gen.get c).cur = (s.gen.get c).cur) (hd : (t.gen.get c).dead = (s.gen.get c).dead)
    (hf : (t.gen.get c).flag = (s.gen.get c).flag) : t.visible c = s.visible c := by
  simp only [State.visible, State.groupState, State.groupOf, ChannelGen.level, hn, hb, hg, hp, hc, hd, hf]
  congr

@[simp] theorem State.drive_visible (s : State) (c : Fin 6) : s.drive.visible c = s.visible c := by
  apply State.visible_congr <;> simp [State.drive]

/-- Everything driving the pins does. -/
theorem State.drive_driven (s : State) : s.Driven s.drive where
  outputs c := by rw [State.drive_visible]; simp [State.drive]
  inputs i := by
    have h1 : ∀ c, (s.drive.gen.get c).output = s.visible c := fun c => by simp [State.drive]
    have h2 : ∀ g, (s.node.state.live = true ∧ s.pinChange g = true) ↔
        (s.node.state.live = true ∧ ∃ c, s.groupOf c = g ∧ (s.gen.get c).output ≠ (s.drive.gen.get c).output) := by
      intro g
      rw [State.pinChange_iff]
      simp only [h1]
    have h3 : s.drive.prot.inputs.get i
        = if s.node.state.live then (s.prot.inputs.get i).reblank s.pinChange else s.prot.inputs.get i := by
      simp [State.drive]
    rw [h3]
    cases hg : (s.prot.inputs.get i).entry.group with
    | none =>
      simp only [TripInput.reblank, hg]
      split <;> rfl
    | some g =>
      simp only [TripInput.reblank, hg, ← h2 g]
      by_cases hl : s.node.state.live = true
      · by_cases hp : s.pinChange g = true
        · simp [hl, hp]
        · simp [hl, hp]
      · simp [hl]

@[simp] theorem State.elapse_zero (s : State) : s.elapse 0 = s := by simp [State.elapse]

/-- The event taken first of several is one of them. -/
theorem firstTaken_mem (draw : Nat) (e : Instr) (l : List Instr) : firstTaken draw e l ∈ e :: l := by
  have h : Config.dueChoice draw % (l.length + 1) < (e :: l).length := by
    simpa using Nat.mod_lt _ (Nat.succ_pos _)
  rw [firstTaken, List.getD_eq_getElem _ _ h]
  exact List.getElem_mem h

/-- What an idle step can do: with nothing due a tick passes, else one event that is due enters the queue. -/
theorem State.idle_cases (s : State) :
    (s.dueEvents = [] ∧ s.idle = s.elapse 1)
      ∨ ∃ e n, e ∈ s.dueEvents ∧ s.idle = { s with pending := [e], freeCount := n } := by
  unfold State.idle
  split
  · exact .inl ⟨‹_›, rfl⟩
  · rename_i e h
    exact .inr ⟨e, s.freeCount, by simp [h], rfl⟩
  · rename_i e l _ h
    exact .inr ⟨firstTaken s.freeCount e l, s.freeCount + 1, h ▸ firstTaken_mem _ _ _, rfl⟩

/-- A planned change is due: in RUN the tick of its next interval has come (R70). -/
theorem State.changeDue_iff (s : State) (c : Fin 6) :
    s.changeDue c = true ↔
      s.node.state = .run
        ∧ ∃ x, (s.gen.get c).plan[(s.gen.get c).cur + 1]? = some x ∧ x.first ≤ s.timer.tick := by
  unfold State.changeDue ChannelGen.nextChange
  cases h : (s.gen.get c).plan[(s.gen.get c).cur + 1]? <;> simp

/-- The level of an input's pin does not change while ticks pass (R84). -/
@[simp] theorem TripInput.asserted_elapse (i : TripInput) (n : Nat) (st : NodeState) :
    (i.elapse n st).asserted = i.asserted := by
  unfold TripInput.elapse
  split <;> rfl

end Sys2Proof.Machine
end

