-- ==== Sys2Proof/Laws/Boundary.lean ====
section
/-! SUPPORT. What the passing of ticks, the swap at a boundary and the boundary itself leave, and how a boundary comes
down to the work of the blocks on `State.nextPeriod`. -/

namespace Sys2Proof.Machine

variable (s : State)

/-! ## The passing of ticks -/

theorem PeriodTimer.elapse_keeps (t : PeriodTimer) (n : Nat) :
    (t.elapse n).period = t.period ∧ (t.elapse n).trim = t.trim ∧ (t.elapse n).len = t.len
      ∧ (t.elapse n).running = t.running := by
  simp only [PeriodTimer.elapse]
  split
  · split <;> exact ⟨rfl, rfl, rfl, rfl⟩
  · exact ⟨rfl, rfl, rfl, rfl⟩

@[simp] theorem State.elapse_period (n : Nat) : (s.elapse n).timer.period = s.timer.period := by
  simp only [State.elapse]; split
  · rfl
  · exact (s.timer.elapse_keeps n).1
@[simp] theorem State.elapse_trim (n : Nat) : (s.elapse n).timer.trim = s.timer.trim := by
  simp only [State.elapse]; split
  · rfl
  · exact (s.timer.elapse_keeps n).2.1
@[simp] theorem State.elapse_len (n : Nat) : (s.elapse n).timer.len = s.timer.len := by
  simp only [State.elapse]; split
  · rfl
  · exact (s.timer.elapse_keeps n).2.2.1
@[simp] theorem State.elapse_running (n : Nat) : (s.elapse n).timer.running = s.timer.running := by
  simp only [State.elapse]; split
  · rfl
  · exact (s.timer.elapse_keeps n).2.2.2

/-- A channel after ticks: only the dead time of its run counts (R70). -/
theorem State.elapse_gen (n : Nat) (c : Fin 6) :
    (s.elapse n).gen.get c = { s.gen.get c with dead := (s.gen.get c).dead.map fun r => r - n } := by
  simp only [State.elapse]; split
  · rename_i h; subst h; simp
  · simp [ChannelGen.elapse]

/-- An input after ticks keeps its entry and its pin (R84). -/
theorem State.elapse_input (n : Nat) (i : Fin 4) :
    ((s.elapse n).prot.inputs.get i).entry = (s.prot.inputs.get i).entry
      ∧ ((s.elapse n).prot.inputs.get i).pin = (s.prot.inputs.get i).pin := by
  simp only [State.elapse]; split
  · exact ⟨rfl, rfl⟩
  · simp only [Four.get_map, TripInput.elapse]; split <;> exact ⟨rfl, rfl⟩

/-! ## The boundary -/

/-- The last ticks of the old plans and the rest of the boundary touch different blocks. -/
theorem State.finishPlans_swapAt (p : Word) :
    (s.finishPlans.swapAt p).wrapTimer = { (s.swapAt p).wrapTimer with gen := s.finishPlans.gen } := by
  by_cases h : s.node.state = .run
  · simp only [State.finishPlans, h, if_true, State.swapAt, State.wrapTimer, State.activeP]
    cases hc : s.bank.commit with
    | none => rfl
    | some x => by_cases h2 : x.period = p <;> simp only [h2, if_true, if_false]
  · simp only [State.finishPlans, h, if_false]
    rw [show s.gen = (s.swapAt p).wrapTimer.gen by simp [State.wrapTimer]]

theorem State.wrapTimer_nextPeriod :
    ((s.elapse s.timer.toBoundary).swapAt (s.timer.period + 1)).wrapTimer = s.nextPeriod := by
  have h : ∀ (t : State) (p : Word), (t.swapAt p).timer = t.timer := by
    intro t p; simp only [State.swapAt]; (repeat' split) <;> rfl
  simp only [State.nextPeriod, State.wrapTimer, h, State.elapse_period, State.elapse_trim]
  rfl

@[simp] theorem State.nextPeriod_node : s.nextPeriod.node = s.node := by simp [State.nextPeriod]
@[simp] theorem State.nextPeriod_queue : s.nextPeriod.queue = s.queue := by simp [State.nextPeriod]
@[simp] theorem State.nextPeriod_log : s.nextPeriod.log = s.log := by simp [State.nextPeriod]
@[simp] theorem State.nextPeriod_counters : s.nextPeriod.counters = s.counters := by simp [State.nextPeriod]
@[simp] theorem State.nextPeriod_period : s.nextPeriod.timer.period = s.timer.period + 1 := rfl
@[simp] theorem State.nextPeriod_tick : s.nextPeriod.timer.tick = 0 := rfl
@[simp] theorem State.nextPeriod_gen : s.nextPeriod.gen = (s.elapse s.timer.toBoundary).gen := by
  simp [State.nextPeriod]
@[simp] theorem State.nextPeriod_prot : s.nextPeriod.prot = (s.elapse s.timer.toBoundary).prot := by
  simp [State.nextPeriod]

/-- A boundary of a running timer: the blocks' work on the next period in ARMED and RUN, and nothing more elsewhere. -/
theorem State.boundary_spec :
    (s.elapse s.timer.toBoundary).boundary
      = if s.node.state.live then
          State.boundaryWork { s.nextPeriod with gen := (s.elapse s.timer.toBoundary).finishPlans.gen }
        else { s.nextPeriod with gen := (s.elapse s.timer.toBoundary).finishPlans.gen } := by
  simp only [State.boundary, State.elapse_period, State.finishPlans_swapAt, State.wrapTimer_nextPeriod,
    State.nextPeriod_node]

/-- The old plans at their last tick, channel by channel. -/
theorem State.finishPlans_closed (c : Fin 6) :
    (s.elapse s.timer.toBoundary).finishPlans.gen.get c = s.closed c := by
  simp only [State.finishPlans, State.closed, State.elapse_node, State.elapse_bank]
  split <;> simp

/-- The selections at the boundary, channel by channel. -/
theorem State.nextPeriod_selections :
    s.nextPeriod.selections = s.queue.mapIdx fun c _ => s.selected c := by
  apply Six.ext_get
  intro c
  simp [State.selections, State.selected]

end Sys2Proof.Machine
end

