-- ==== Sys2Proof/Laws/Link.lean ====
section
/-! SUPPORT. What the Link Relay's shared operations do: symbols passing the delay line (R117), byte positions of an
undamaged frame (R119, R121, R124), and the symbols of a whole frame passing the node. -/

namespace Sys2Proof.Machine

/-! ## Bytes and words (R174) -/

/-- A word is put together from its two bytes (R174). -/
theorem wordOf_bytes (w : Word) : wordOf (hiByte w) (loByte w) = w := by
  apply BitVec.eq_of_toNat_eq
  have := w.isLt
  simp only [wordOf, hiByte, loByte]
  rw [BitVec.toNat_append, ← Nat.shiftLeft_add_eq_or_of_lt (BitVec.isLt _)]
  simp [Nat.shiftLeft_eq, Nat.shiftRight_eq_div_pow]
  omega

@[simp] theorem hiByte_wordOf (a b : Byte) : hiByte (wordOf a b) = a := by
  apply BitVec.eq_of_toNat_eq
  have := a.isLt
  have := b.isLt
  simp only [wordOf, hiByte]
  rw [BitVec.extractLsb'_toNat, BitVec.toNat_append, ← Nat.shiftLeft_add_eq_or_of_lt (BitVec.isLt _)]
  simp [Nat.shiftLeft_eq, Nat.shiftRight_eq_div_pow]
  omega

@[simp] theorem loByte_wordOf (a b : Byte) : loByte (wordOf a b) = b := by
  apply BitVec.eq_of_toNat_eq
  have := a.isLt
  have := b.isLt
  simp only [wordOf, loByte]
  rw [BitVec.extractLsb'_toNat, BitVec.toNat_append, ← Nat.shiftLeft_add_eq_or_of_lt (BitVec.isLt _)]
  simp [Nat.shiftLeft_eq, Nat.shiftRight_eq_div_pow]
  omega

/-! ## The delay line (R117) -/

theorem Relay.forward_eq (r : Relay) (x : Symbol) :
    r.forward x = { r with line := (r.line ++ [x]).tail, sent := r.sent ++ (r.line ++ [x]).take 1 } := by
  unfold Relay.forward
  cases r.line <;> simp

/-- What left and what stands in the node are what left and stood there before, and the new symbol (R117). -/
theorem Relay.forward_sent_line (r : Relay) (x : Symbol) :
    (r.forward x).sent ++ (r.forward x).line = r.sent ++ r.line ++ [x] := by
  rw [Relay.forward_eq]
  cases r.line <;> simp

@[simp] theorem Relay.forward_line_length (r : Relay) (x : Symbol) :
    (r.forward x).line.length = r.line.length := by
  rw [Relay.forward_eq]
  simp

@[simp] theorem Relay.forward_rx (r : Relay) (x : Symbol) : (r.forward x).rx = r.rx := by rw [Relay.forward_eq]
@[simp] theorem Relay.forward_frame (r : Relay) (x : Symbol) : (r.forward x).frame = r.frame := by
  rw [Relay.forward_eq]
@[simp] theorem Relay.forward_bypass (r : Relay) (x : Symbol) : (r.forward x).bypass = r.bypass := by
  rw [Relay.forward_eq]

/-- A run of symbols passes. -/
def Relay.forwardAll (r : Relay) (l : List Symbol) : Relay := l.foldl Relay.forward r

@[simp] theorem Relay.forwardAll_nil (r : Relay) : r.forwardAll [] = r := rfl

theorem Relay.forwardAll_append (r : Relay) (l m : List Symbol) :
    r.forwardAll (l ++ m) = (r.forwardAll l).forwardAll m := List.foldl_append

theorem Relay.forwardAll_snoc (r : Relay) (l : List Symbol) (x : Symbol) :
    r.forwardAll (l ++ [x]) = (r.forwardAll l).forward x := by
  rw [Relay.forwardAll_append]
  rfl

/-- Everything a run of symbols does to the relay (R117). -/
theorem Relay.forwardAll_spec (r : Relay) (l : List Symbol) :
    (r.forwardAll l).sent ++ (r.forwardAll l).line = r.sent ++ r.line ++ l
      ∧ (r.forwardAll l).line.length = r.line.length ∧ (r.forwardAll l).rx = r.rx
      ∧ (r.forwardAll l).frame = r.frame ∧ (r.forwardAll l).bypass = r.bypass := by
  induction l using List.reverseRecOn with
  | nil => simp
  | append_singleton l x ih => simp [Relay.forwardAll_snoc, Relay.forward_sent_line, ih]

/-! ## The frame check state of an undamaged frame (R119, R121, R124) -/

/-- The frame check state after the bytes `ins` of an undamaged frame, handed to parser `p`, have left as
`outs`. -/
def FrameCheck.over (p : Parser) (ins outs : List Byte) : FrameCheck :=
  { pos := ins.length
    past := 0
    crcIn := crc16 (ins.reverse.drop 2).reverse
    in1 := ins.reverse.getD 0 0
    in2 := ins.reverse.getD 1 0
    crcOut := crc16 (outs.reverse.drop 2).reverse
    out1 := outs.reverse.getD 0 0
    out2 := outs.reverse.getD 1 0
    symErr := false
    malformed := false
    kind := ins.head?
    lenHi := ins.getD 1 0
    length := if 3 ≤ ins.length then some (wordOf (ins.getD 1 0) (ins.getD 2 0)) else none
    parser := p }

theorem FrameCheck.over_nil : FrameCheck.over .none [] [] = .clear := rfl

theorem crc16_snoc (l : List Byte) (b : Byte) : crc16 (l ++ [b]) = crc16Step (crc16 l) b := by
  simp [crc16]

theorem crc8_snoc (l : List Byte) (b : Byte) : crc8 (l ++ [b]) = crc8Step (crc8 l) b := by
  simp [crc8]

/-- The CRC that runs two bytes behind, after one more byte. -/
theorem crc_behind (l : List Byte) (b : Byte) :
    crc16 (((l ++ [b]).reverse.drop 2).reverse)
      = if 2 ≤ l.length then crc16Step (crc16 ((l.reverse.drop 2).reverse)) (l.reverse.getD 1 0)
        else crc16 ((l.reverse.drop 2).reverse) := by
  obtain ⟨m, rfl⟩ : ∃ m, l = m.reverse := ⟨l.reverse, by simp⟩
  match m with
  | [] => simp
  | [x] => simp
  | x :: y :: t => simp [crc16_snoc]

/-- One byte position of an undamaged frame. -/
theorem FrameCheck.over_step (p q : Parser) (ins outs : List Byte) (b b' : Byte)
    (hl : outs.length = ins.length) (hn : ins.length < Config.maxPositions)
    (hb : ins.length = 2 → (wordOf (ins.getD 1 0) b).toNat ≤ Config.maxBody) :
    { ((FrameCheck.over p ins outs).receive b).send ins.length b' with parser := q }
      = FrameCheck.over q (ins ++ [b]) (outs ++ [b']) := by
  have h1 := crc_behind ins b
  have h2 := crc_behind outs b'
  have hm : min (ins.length + 1) (Config.maxPositions + 1) = (ins ++ [b]).length := by simp; omega
  simp only [FrameCheck.over, FrameCheck.receive, FrameCheck.send, h1, h2, hm, hl]
  match ins, outs with
  | [], [] => simp_all [Config.maxPositions, Config.maxBody]
  | [x], [x'] => simp_all [Config.maxPositions, Config.maxBody]
  | [x, y], [x', y'] => simp_all [Config.maxPositions, Config.maxBody]
  | x :: y :: z :: t, x' :: y' :: z' :: t' =>
    simp_all [Config.maxPositions, Config.maxBody]
    omega
  | [], _ :: _ => simp at hl
  | [_], [] => simp at hl
  | [_], _ :: _ :: _ => simp at hl
  | [_, _], [] => simp at hl
  | [_, _], [_] => simp at hl
  | [_, _], _ :: _ :: _ :: _ => simp at hl
  | _ :: _ :: _ :: _, [] => simp at hl
  | _ :: _ :: _ :: _, [_] => simp at hl
  | _ :: _ :: _ :: _, [_, _] => simp at hl

/-- The frame check state at the end of an undamaged frame: its trailer passes (R121). -/
theorem FrameCheck.over_trailer (p : Parser) (l outs : List Byte) (a b : Byte) (ha : wordOf a b = crc16 l)
    (hl : 3 ≤ l.length) : (FrameCheck.over p (l ++ [a, b]) outs).trailerOk = true := by
  have h1 : (l ++ [a, b]).reverse = b :: a :: l.reverse := by simp
  simp [FrameCheck.trailerOk, FrameCheck.over, h1, ha]
  omega

/-- An undamaged frame of the stated extent is good (R123). -/
theorem FrameCheck.over_good (p : Parser) (k : Byte) (body outs : List Byte)
    (hn : body.length ≤ Config.maxBody) (hf : fixedPart (some k) ≤ body.length) :
    (FrameCheck.over p (frameBytes k body ++ wordBytes (crc16 (frameBytes k body))) outs).good = true := by
  have hw := wordOf_bytes
  have h3 : 3 ≤ (frameBytes k body).length := by simp [frameBytes, wordBytes]
  have h1 := FrameCheck.over_trailer p (frameBytes k body) outs _ _ (hw (crc16 (frameBytes k body))) h3
  have h5 : body.length % 65536 = body.length := by
    simp [Config.maxBody] at hn
    omega
  have h2 : (FrameCheck.over p (frameBytes k body ++ wordBytes (crc16 (frameBytes k body))) outs).malformedAtEnd
      = false := by
    simp [FrameCheck.malformedAtEnd, FrameCheck.over, FrameCheck.bodyLen, frameBytes, wordBytes, hw, h5, hf]
    omega
  have h4 : wordBytes (crc16 (frameBytes k body))
      = [hiByte (crc16 (frameBytes k body)), loByte (crc16 (frameBytes k body))] := rfl
  rw [← h4] at h1
  simp only [FrameCheck.good, h1, h2]
  rfl

end Sys2Proof.Machine
end

