-- ==== Sys2Proof/Laws/Request.lean ====
section
/-! SUPPORT. What the passing of a request's frame does, said once (R146 to R151, R159): the owner decides on the state
before the frame, and beside its effects only the relay, the frame state of the engine and one frame counter
change. -/

namespace Sys2Proof.Machine

/-! ## The owners do not see the frame -/

/-- `s` with another relay and another frame state of the engine. -/
def State.wire (s : State) (r : Relay) (m : MgmtFrame) : State :=
  { s with relay := r, mgmt := { s.mgmt with frame := m } }

/-- An answer with another relay and another frame state. -/
def Answer.wire (a : Answer) (r : Relay) (m : MgmtFrame) : Answer := { a with st := a.st.wire r m }

variable (s : State) (r : Relay) (m : MgmtFrame) (seq : Byte) (args : List Byte)

theorem ownIdentify_wire : ownIdentify (s.wire r m) = (ownIdentify s).wire r m := rfl

theorem ownFaultRead_wire : ownFaultRead (s.wire r m) = (ownFaultRead s).wire r m := rfl

theorem ownCountersRead_wire : ownCountersRead (s.wire r m) = (ownCountersRead s).wire r m := rfl

theorem ownCountersClear_wire : ownCountersClear (s.wire r m) = (ownCountersClear s).wire r m := rfl

theorem ownFaultPop_wire : ownFaultPop args (s.wire r m) = (ownFaultPop args s).wire r m := by
  have h : (s.wire r m).log = s.log := rfl
  simp only [ownFaultPop, h]
  split
  · rfl
  · split <;> rfl

theorem State.cancelCommit_wire : (s.wire r m).cancelCommit = s.cancelCommit.wire r m := by
  have h : (s.wire r m).bank = s.bank := rfl
  simp only [State.cancelCommit, h]
  split <;> rfl

theorem State.flush_wire : (s.wire r m).flush = s.flush.wire r m := rfl

theorem State.quietGates_wire : (s.wire r m).quietGates = s.quietGates.wire r m := rfl

theorem State.record_wire (c : FaultCause) (g : Option (Fin 2)) (i : Option (Fin 4)) (k : Option (Fin 6)) :
    (s.wire r m).record c g i k = (s.record c g i k).wire r m := rfl

theorem State.enterSafe_wire (c : SafeCause) (f : Option FaultCause) (k : Option (Fin 6)) :
    (s.wire r m).enterSafe c f k = (s.enterSafe c f k).wire r m := by
  have h : (s.wire r m).node = s.node := rfl
  simp only [State.enterSafe, h]
  split
  · cases f <;>
      simp only [State.record_wire, State.flush_wire, State.cancelCommit_wire, State.quietGates_wire] <;> rfl
  · rfl

theorem ownStop_wire : ownStop (s.wire r m) = (ownStop s).wire r m := by
  have h : (s.wire r m).node = s.node := rfl
  simp only [ownStop, h, State.enterSafe_wire]
  split
  · rfl
  · split <;> rfl

theorem ownClear_wire : ownClear (s.wire r m) = (ownClear s).wire r m := by
  have h : (s.wire r m).node = s.node := rfl
  simp only [ownClear, h]
  split <;> rfl

theorem State.endJobForRestart_wire : (s.wire r m).endJobForRestart = s.endJobForRestart.wire r m := by
  have h : (s.wire r m).load = s.load := rfl
  simp only [State.endJobForRestart, h]
  split <;> rfl

theorem ownRestart_wire : ownRestart (s.wire r m) = (ownRestart s).wire r m := by
  simp only [ownRestart, State.restart, State.cancelCommit_wire, State.endJobForRestart_wire]
  rfl

theorem ownArm_wire : ownArm args (s.wire r m) = (ownArm args s).wire r m := by
  have h1 : (s.wire r m).node = s.node := rfl
  have h2 : (s.wire r m).bank = s.bank := rfl
  have h3 : (s.wire r m).activeP = s.activeP := rfl
  have h4 : (s.wire r m).mgmt.comp = s.mgmt.comp := rfl
  have h5 : (s.wire r m).pins = s.pins := rfl
  simp only [ownArm, h1, h2, h3, h4, h5]
  split_ifs <;> rfl

theorem ownAlign_wire : ownAlign args (s.wire r m) = (ownAlign args s).wire r m := by
  have h1 : (s.wire r m).node = s.node := rfl
  have h2 : (s.wire r m).bank = s.bank := rfl
  have h3 : (s.wire r m).activeP = s.activeP := rfl
  simp only [ownAlign, h1, h2, h3]
  split_ifs <;> rfl

theorem ownTrim_wire : ownTrim args (s.wire r m) = (ownTrim args s).wire r m := by
  have h1 : (s.wire r m).node = s.node := rfl
  have h3 : (s.wire r m).activeP = s.activeP := rfl
  have h4 : (s.wire r m).timer = s.timer := rfl
  simp only [ownTrim, h1, h3, h4]
  split_ifs <;> rfl

theorem ownCopyActive_wire : ownCopyActive (s.wire r m) = (ownCopyActive s).wire r m := by
  have h : (s.wire r m).bank = s.bank := rfl
  simp only [ownCopyActive, h]
  split <;> rfl

theorem ownCommit_wire : ownCommit seq args (s.wire r m) = (ownCommit seq args s).wire r m := by
  have h1 : (s.wire r m).node = s.node := rfl
  have h2 : (s.wire r m).bank = s.bank := rfl
  have h3 : (s.wire r m).timer = s.timer := rfl
  simp only [ownCommit, commitConfig, commitLive, h1, h2, h3]
  cases s.node.state <;> dsimp only <;> (repeat' split) <;> rfl

theorem ownReadEntry_wire : ownReadEntry args (s.wire r m) = (ownReadEntry args s).wire r m := by
  have h2 : (s.wire r m).bank = s.bank := rfl
  have h3 : (s.wire r m).prot = s.prot := rfl
  simp only [ownReadEntry, readBank, h2, h3]
  (repeat' split) <;> rfl

theorem ownWriteEntry_wire : ownWriteEntry args (s.wire r m) = (ownWriteEntry args s).wire r m := by
  have h1 : (s.wire r m).node = s.node := rfl
  have h2 : (s.wire r m).bank = s.bank := rfl
  have h3 : (s.wire r m).prot = s.prot := rfl
  simp only [ownWriteEntry, writeBank, writeTripInput, writeGroup, writeNode, h1, h2, h3]
  (repeat' split) <;> rfl

theorem ownTripAck_wire : ownTripAck args (s.wire r m) = (ownTripAck args s).wire r m := by
  have h1 : (s.wire r m).node = s.node := rfl
  have h3 : (s.wire r m).prot = s.prot := rfl
  have h4 : ∀ g, (s.wire r m).enableGroup g = (s.enableGroup g).wire r m := by
    intro g
    simp only [State.enableGroup, State.holdUntilEdge]
    have h5 : ((s.wire r m).modifyGroup g fun x => { x with state := .enabled }).node = s.node := rfl
    have h6 : (s.modifyGroup g fun x => { x with state := .enabled }).node = s.node := rfl
    rw [h5, h6]
    split <;> rfl
  simp only [ownTripAck, h1, h3, h4]
  (repeat' split) <;> rfl

theorem ownLoadBegin_wire : ownLoadBegin args (s.wire r m) = (ownLoadBegin args s).wire r m := by
  have h1 : (s.wire r m).load = s.load := rfl
  have h2 : (s.wire r m).bank = s.bank := rfl
  simp only [ownLoadBegin, h1, h2]
  split_ifs <;> rfl

theorem ownLoadData_wire : ownLoadData args (s.wire r m) = (ownLoadData args s).wire r m := by
  have h1 : (s.wire r m).load = s.load := rfl
  have h2 : (s.wire r m).bank = s.bank := rfl
  simp only [ownLoadData, h1, h2]
  (repeat' split) <;> rfl

theorem ownLoadEnd_wire : ownLoadEnd seq (s.wire r m) = (ownLoadEnd seq s).wire r m := by
  have h1 : (s.wire r m).load = s.load := rfl
  have h2 : (s.wire r m).bank = s.bank := rfl
  simp only [ownLoadEnd, h1, h2]
  (repeat' split) <;> rfl

theorem ownLoadCancel_wire : ownLoadCancel (s.wire r m) = (ownLoadCancel s).wire r m := by
  have h1 : (s.wire r m).load = s.load := rfl
  simp only [ownLoadCancel, h1]
  split <;> rfl

/-- No owner reads or writes the relay or the frame state of the engine. -/
theorem own_wire (k : ReqKind) : own k seq args (s.wire r m) = (own k seq args s).wire r m := by
  cases k <;>
    simp only [own, ownIdentify_wire, ownReadEntry_wire, ownWriteEntry_wire, ownCopyActive_wire, ownCommit_wire,
      ownArm_wire, ownAlign_wire, ownTrim_wire, ownStop_wire, ownClear_wire, ownRestart_wire, ownTripAck_wire,
      ownFaultRead_wire, ownFaultPop_wire, ownCountersRead_wire, ownCountersClear_wire, ownLoadBegin_wire,
      ownLoadData_wire, ownLoadEnd_wire, ownLoadCancel_wire]

theorem decideKind_wire (k : ReqKind) :
    decideKind k seq args (s.wire r m)
      = ((decideKind k seq args s).1.wire r m, (decideKind k seq args s).2) := by
  have h1 : (s.wire r m).mgmt.lookup seq k = s.mgmt.lookup seq k := rfl
  have h2 : ({ s.wire r m with mgmt := (s.wire r m).mgmt.makeRoom seq } : State)
      = ({ s with mgmt := s.mgmt.makeRoom seq } : State).wire r m := rfl
  have h3 : ∀ t : State, decideNew k seq args (t.wire r m) = (decideNew k seq args t).wire r m := by
    intro t
    simp only [decideNew, own_wire]
    split <;> rfl
  simp only [decideKind, decideCached, h1, h2, h3]
  split
  · split <;> rfl
  · rfl

/-! ## The decision (R149, R150, R159) -/

/-- The state and the reply after the decision of an ADDRESSED request (R150). -/
def State.outcomeAddressed (kind : Byte) (capacity : Nat) : State × Option Reply :=
  match ReqKind.ofCode kind with
  | none => (s, if 3 ≤ capacity then some (.bytes (replyBytes .unknownRequest false [])) else none)
  | some k =>
    if capacity < 3 + largestData k args then
      (s, if 3 ≤ capacity then some (.bytes (replyBytes .noRoom false [])) else none)
    else
      ((decideKind k seq args s).1.st,
        some (.bytes (replyBytes (decideKind k seq args s).1.status (decideKind k seq args s).2
          (decideKind k seq args s).1.data)))

/-- The state and the reply after the decision of a BROADCAST request (R159). -/
def State.outcomeBroadcast (kind : Byte) (capacity : Nat) : State × Option Reply :=
  if capacity < 3 then (s, none)
  else
    match ReqKind.ofCode kind with
    | none => (s, some (.tally 1))
    | some k =>
      if k.mayBroadcast then
        ((decideKind k seq args s).1.st, some (.tally (decideKind k seq args s).1.status.tally))
      else (s, some (.tally 1))

/-- The state and the reply after the decision of a request whose frame and check are in order (R149). -/
def State.outcome (ind : MatchInd) (kind : Byte) (capacity : Nat) : State × Option Reply :=
  match ind with
  | .none => (s, none)
  | .addressed => s.outcomeAddressed seq args kind capacity
  | .broadcast => s.outcomeBroadcast seq args kind capacity

theorem State.prepare_wire (x : Reply) :
    (s.wire r m).prepare x = s.wire r { m with reply := some x } := rfl

theorem State.decideAddressed_wire (kind : Byte) (capacity : Nat) (h : m.reply = none) :
    (s.wire r m).decideAddressed kind seq args capacity
      = (s.outcomeAddressed seq args kind capacity).1.wire r
          { m with reply := (s.outcomeAddressed seq args kind capacity).2 } := by
  have hm : s.wire r m = s.wire r { m with reply := none } := by rw [← h]
  simp only [State.decideAddressed, State.outcomeAddressed, decideKind_wire]
  cases ReqKind.ofCode kind with
  | none =>
    simp only [State.replyBare]
    split
    · rfl
    · exact hm
  | some k =>
    dsimp only
    split
    · simp only [State.replyBare]
      split
      · rfl
      · exact hm
    · rfl

theorem State.decideBroadcast_wire (kind : Byte) (capacity : Nat) (h : m.reply = none) :
    (s.wire r m).decideBroadcast kind seq args capacity
      = (s.outcomeBroadcast seq args kind capacity).1.wire r
          { m with reply := (s.outcomeBroadcast seq args kind capacity).2 } := by
  have hm : s.wire r m = s.wire r { m with reply := none } := by rw [← h]
  simp only [State.decideBroadcast, State.outcomeBroadcast, decideKind_wire]
  split
  · exact hm
  · cases ReqKind.ofCode kind with
    | none => rfl
    | some k =>
      dsimp only
      split <;> rfl

/-- Everything the decision of a request does, its frame and check in order (R149). -/
theorem State.decideRequest_wire (capacity : Nat) (h : m.reply = none) (hc : m.checkOk = true)
    (he : r.frame.symErr = false) (hf : r.frame.malformed = false) :
    (s.wire r m).decideRequest capacity
      = (s.outcome m.seq m.args m.ind m.kind capacity).1.wire r
          { m with reply := (s.outcome m.seq m.args m.ind m.kind capacity).2 } := by
  obtain ⟨ph, ind, sq, kd, al, ar, cr, ck, cap, rp, rpos⟩ := m
  dsimp only at h hc
  subst h hc
  have h2 : ∀ x, (s.wire r x).relay = r := fun _ => rfl
  have h3 : ∀ x, (s.wire r x).mgmt.frame = x := fun _ => rfl
  cases ind
  · rfl
  · simp only [State.decideRequest, h2, h3, he, hf]
    exact State.decideAddressed_wire s r _ sq ar kd capacity rfl
  · simp only [State.decideRequest, h2, h3, he, hf]
    exact State.decideBroadcast_wire s r _ sq ar kd capacity rfl

/-! ## The frame in progress -/

/-- The relay `r0` while an undamaged frame passes: `ins` has arrived and left as `outs`. -/
def Relay.during (r0 : Relay) (p : Parser) (ins outs : List Byte) : Relay :=
  ({ r0 with rx := .inFrame, frame := .over p ins outs, sent := [] } : Relay).forwardAll
    (.frameStart :: outs.map .byte)

theorem Relay.during_spec (r0 : Relay) (p : Parser) (ins outs : List Byte) :
    (r0.during p ins outs).sent ++ (r0.during p ins outs).line
        = r0.line ++ (.frameStart :: outs.map .byte)
      ∧ (r0.during p ins outs).line.length = r0.line.length ∧ (r0.during p ins outs).rx = .inFrame
      ∧ (r0.during p ins outs).frame = .over p ins outs ∧ (r0.during p ins outs).bypass = r0.bypass := by
  have h := Relay.forwardAll_spec
    ({ r0 with rx := .inFrame, frame := .over p ins outs, sent := [] } : Relay) (.frameStart :: outs.map .byte)
  simpa [Relay.during] using h

theorem Relay.forward_withFrame (r : Relay) (f : FrameCheck) (x : Symbol) :
    ({ r with frame := f } : Relay).forward x = { r.forward x with frame := f } := by
  simp [Relay.forward_eq]

theorem Relay.forwardAll_withFrame (r : Relay) (f : FrameCheck) (l : List Symbol) :
    ({ r with frame := f } : Relay).forwardAll l = { r.forwardAll l with frame := f } := by
  induction l using List.reverseRecOn with
  | nil => rfl
  | append_singleton l x ih => rw [Relay.forwardAll_snoc, Relay.forwardAll_snoc, ih, Relay.forward_withFrame]

/-- One more byte of the frame passes. -/
theorem Relay.during_forward (r0 : Relay) (p : Parser) (ins outs : List Byte) (b b' : Byte) :
    ({ r0.during p ins outs with frame := .over p (ins ++ [b]) (outs ++ [b']) } : Relay).forward (.byte b')
      = r0.during p (ins ++ [b]) (outs ++ [b']) := by
  have h := Relay.forwardAll_withFrame ⟨.inFrame, .over p ins outs, r0.bypass, r0.line, []⟩
    (.over p (ins ++ [b]) (outs ++ [b'])) (.frameStart :: outs.map .byte)
  simp only [Relay.during, List.map_append, ← List.cons_append, List.map_singleton, Relay.forwardAll_snoc]
  exact congrArg (fun r => r.forward (.byte b')) h.symm

/-- With supply and without bypass a symbol is received by the relay (R119). -/
theorem State.receive_ready (s : State) (x : Symbol) (h1 : s.pins.supply = true) (h2 : s.relay.bypass = false) :
    s.receive x = s.relaySymbol x := by
  simp [State.receive, h1, h2]

/-- A body byte of an undamaged frame passes (R117, R125). -/
theorem State.receive_body (p : Parser) (r0 : Relay) (s s' : State) (m m' : MgmtFrame) (ins outs : List Byte)
    (b b' : Byte) (n : Nat) (hs : s.pins.supply = true) (hb : r0.bypass = false) (hl : outs.length = ins.length)
    (h3 : 3 ≤ ins.length) (hi : ins.length < 3 + n)
    (hn : (wordOf (ins.getD 1 0) (ins.getD 2 0)).toNat = n) (hm : n ≤ Config.maxBody)
    (step : ∀ R : Relay, R.frame.symErr = false → R.frame.malformed = false → R.frame.parser = p →
      R.frame.bodyLen = n → (s.wire R m).parse b (ins.length - 3) = (s'.wire R m', b')) :
    (s.wire (r0.during p ins outs) m).receive (.byte b)
      = s'.wire (r0.during p (ins ++ [b]) (outs ++ [b'])) m' := by
  have hmax : Config.maxBody = 1020 := rfl
  have hpos : Config.maxPositions = 1025 := rfl
  obtain ⟨-, -, hrx, hf, hby⟩ := Relay.during_spec r0 p ins outs
  have hstep := FrameCheck.over_step p p ins outs b b' hl (by omega) (by omega)
  have e1 : (s.wire (r0.during p ins outs) m).pins.supply = true := hs
  have e2 : (s.wire (r0.during p ins outs) m).relay = r0.during p ins outs := rfl
  simp only [State.receive, State.relaySymbol, e1, e2, hby, hb, hrx]
  have e3 : (s.wire (r0.during p ins outs) m).withFrame (fun f => f.receive b)
      = s.wire { r0.during p ins outs with frame := (FrameCheck.over p ins outs).receive b } m := by
    rw [← hf]
    rfl
  have e4 : ∀ R : Relay, (s.wire R m).relay = R := fun _ => rfl
  have e5 : ((FrameCheck.over p ins outs).receive b).bodyLen = n := by
    have : ins.length ≠ 2 := by omega
    simp only [FrameCheck.bodyLen, FrameCheck.receive, FrameCheck.over, if_neg this, if_pos h3]
    exact hn
  have e6 : ((FrameCheck.over p ins outs).receive b).symErr = false := rfl
  have e7 : ((FrameCheck.over p ins outs).receive b).malformed = false :=
    congrArg FrameCheck.malformed hstep
  have e8 : (FrameCheck.over p ins outs).pos = ins.length := rfl
  have e9 : ((FrameCheck.over p ins outs).receive b).parser = p := rfl
  have c1 : ¬ ins.length = 0 := by omega
  have c2 : 3 ≤ ins.length ∧ ins.length < 3 + n := by omega
  have e0 : (FrameCheck.over p ins outs).past = 0 := rfl
  simp only [State.receiveByte, e2, e3, e4, e5, hf, e8, e0, Nat.add_zero, c1, c2, if_false]
  rw [if_neg (by decide), if_neg (by decide)]
  simp only [and_self, if_true]
  rw [step _ e6 e7 e9 e5]
  have e10 : ((FrameCheck.over p ins outs).receive b).send ins.length b'
      = FrameCheck.over p (ins ++ [b]) (outs ++ [b']) := hstep
  have e11 : (s'.wire { r0.during p ins outs with frame := (FrameCheck.over p ins outs).receive b }
      m').withFrame (fun f => f.send ins.length b')
      = s'.wire { r0.during p ins outs with frame := .over p (ins ++ [b]) (outs ++ [b']) } m' := by
    rw [← e10]
    rfl
  have e12 : ∀ (R : Relay) (x : Symbol), (s'.wire R m').forward x = s'.wire (R.forward x) m' := fun _ _ => rfl
  dsimp only
  rw [e11, e12, Relay.during_forward]

/-- A byte outside the body of an undamaged frame passes: the length, the trailer (R117). -/
theorem State.receive_outside (p : Parser) (r0 : Relay) (s : State) (m : MgmtFrame) (ins outs : List Byte)
    (b : Byte) (hs : s.pins.supply = true) (hb : r0.bypass = false) (hl : outs.length = ins.length)
    (h0 : ins.length ≠ 0) (hi : ins.length < 3 ∨ 3 + (wordOf (ins.getD 1 0) (ins.getD 2 0)).toNat ≤ ins.length)
    (hn : ins.length < Config.maxPositions)
    (hm : ins.length = 2 → (wordOf (ins.getD 1 0) b).toNat ≤ Config.maxBody) :
    (s.wire (r0.during p ins outs) m).receive (.byte b)
      = s.wire (r0.during p (ins ++ [b]) (outs ++ [b])) m := by
  obtain ⟨-, -, hrx, hf, hby⟩ := Relay.during_spec r0 p ins outs
  have hstep := FrameCheck.over_step p p ins outs b b hl hn hm
  have e1 : (s.wire (r0.during p ins outs) m).pins.supply = true := hs
  have e2 : (s.wire (r0.during p ins outs) m).relay = r0.during p ins outs := rfl
  simp only [State.receive, State.relaySymbol, e1, e2, hby, hb, hrx]
  have e3 : (s.wire (r0.during p ins outs) m).withFrame (fun f => f.receive b)
      = s.wire { r0.during p ins outs with frame := (FrameCheck.over p ins outs).receive b } m := by
    rw [← hf]
    rfl
  have e4 : ∀ R : Relay, (s.wire R m).relay = R := fun _ => rfl
  have e8 : (FrameCheck.over p ins outs).pos = ins.length := rfl
  have e0 : (FrameCheck.over p ins outs).past = 0 := rfl
  have c2 : ¬ (3 ≤ ins.length ∧ ins.length < 3 + ((FrameCheck.over p ins outs).receive b).bodyLen) := by
    rintro ⟨h3, h4⟩
    have h5 : ins.length ≠ 2 := by omega
    simp only [FrameCheck.bodyLen, FrameCheck.receive, FrameCheck.over, if_neg h5, if_pos h3] at h4
    have h6 : ((some (wordOf (ins.getD 1 0) (ins.getD 2 0))).getD 0).toNat
        = (wordOf (ins.getD 1 0) (ins.getD 2 0)).toNat := rfl
    omega
  simp only [State.receiveByte, e2, e3, e4, hf, e8, e0, Nat.add_zero, h0, c2, if_false]
  rw [if_neg (by decide), if_neg (by decide)]
  have e10 : ((FrameCheck.over p ins outs).receive b).send ins.length b
      = FrameCheck.over p (ins ++ [b]) (outs ++ [b]) := hstep
  have e11 : (s.wire { r0.during p ins outs with frame := (FrameCheck.over p ins outs).receive b }
      m).withFrame (fun f => f.send ins.length b)
      = s.wire { r0.during p ins outs with frame := .over p (ins ++ [b]) (outs ++ [b]) } m := by
    rw [← e10]
    rfl
  have e12 : ∀ (R : Relay) (x : Symbol), (s.wire R m).forward x = s.wire (R.forward x) m := fun _ _ => rfl
  rw [e11, e12, Relay.during_forward]

/-- The parser's state at the start of a frame handed to it (R132, R129, R146). -/
def State.begun (s : State) (p : Parser) : State :=
  match p with
  | .none => s
  | .slot => s.withSlots SlotParser.begin
  | .mgmt => s.withMgmt fun _ => .clear
  | .roll => s.withRoll RollCall.begin

/-- A FRAME_START between frames and the kind byte after it (R119, R125). -/
theorem State.receive_start (s : State) (k : Byte) (h : s.Ready) :
    ([.frameStart, .byte k].foldl State.receive { s with relay := { s.relay with sent := [] } })
      = { s.begun (parserFor k s.node.state) with
          relay := s.relay.during (parserFor k s.node.state) [k] [k] } := by
  obtain ⟨h1, h2, h3, -⟩ := h
  have hstep := FrameCheck.over_step .none (parserFor k s.node.state) [] [] k k rfl (by decide) (by simp)
  have e0 : ({ s with relay := { s.relay with sent := [] } } : State).receive .frameStart
      = { s with relay := s.relay.during .none [] [] } := by
    have e := State.receive_ready ({ s with relay := { s.relay with sent := [] } } : State) .frameStart h1 h2
    refine e.trans ?_
    simp only [State.relaySymbol, h3]
    rfl
  obtain ⟨-, -, hrx, hf, hby⟩ := Relay.during_spec s.relay .none [] []
  have e8 : (FrameCheck.over .none [] []).pos = 0 := rfl
  simp only [List.foldl]
  rw [e0]
  refine (State.receive_ready ({ s with relay := s.relay.during .none [] [] } : State) _ h1 (hby.trans h2)).trans ?_
  simp only [State.relaySymbol, hrx, State.receiveByte, hf, e8, if_true]
  have e5 := Relay.during_forward s.relay (parserFor k s.node.state) [] [] k k
  have hd : ({ s.relay.during .none [] [] with frame := .over (parserFor k s.node.state) [k] [k] } : Relay)
      = { s.relay.during (parserFor k s.node.state) [] [] with
          frame := .over (parserFor k s.node.state) [k] [k] } := by
    simp [Relay.during, Relay.forwardAll, Relay.forward_eq]
  replace e5 := (congrArg (fun r : Relay => r.forward (.byte k)) hd).trans e5
  have e6 : (FrameCheck.over .none [] []) = .clear := rfl
  have e7 : ((({ s with relay := s.relay.during .none [] [] } : State).withFrame fun f => f.receive k).choose
      k).withFrame (fun f => f.send 0 k)
      = { s.begun (parserFor k s.node.state) with
          relay := { s.relay.during .none [] [] with frame := .over (parserFor k s.node.state) [k] [k] } } := by
    have hn : (({ s with relay := s.relay.during .none [] [] } : State).withFrame
      fun f => f.receive k).node.state = s.node.state := rfl
    simp only [State.choose, hn]
    simp only [List.length_nil, List.nil_append] at hstep
    rw [← hstep]
    cases parserFor k s.node.state <;> simp only [State.begun, State.withFrame, hf] <;> rfl
  rw [e7]
  exact congrArg (fun r => ({ s.begun (parserFor k s.node.state) with relay := r } : State)) e5

/-! ## The whole frame -/

/-- The three bytes before a frame's body (11.1). -/
def frameHead (k : Byte) (body : List Byte) : List Byte := k :: wordBytes (BitVec.ofNat 16 body.length)

theorem frameBytes_head (k : Byte) (body : List Byte) : frameBytes k body = frameHead k body ++ body := rfl

theorem frameHead_length (k : Byte) (body : List Byte) (h : body.length ≤ Config.maxBody) :
    (wordOf ((frameHead k body).getD 1 0) ((frameHead k body).getD 2 0)).toNat = body.length := by
  have hmax : Config.maxBody = 1020 := rfl
  have h1 : (frameHead k body).getD 1 0 = hiByte (BitVec.ofNat 16 body.length) := rfl
  have h2 : (frameHead k body).getD 2 0 = loByte (BitVec.ofNat 16 body.length) := rfl
  rw [h1, h2, wordOf_bytes, BitVec.toNat_ofNat]
  omega

/-- The first four symbols of an undamaged frame. -/
theorem State.receive_head (s : State) (k : Byte) (body : List Byte) (h : s.Ready)
    (hn : body.length ≤ Config.maxBody) :
    ((Symbol.frameStart :: (frameHead k body).map Symbol.byte).foldl State.receive
        { s with relay := { s.relay with sent := [] } })
      = (s.begun (parserFor k s.node.state)).wire
          (s.relay.during (parserFor k s.node.state) (frameHead k body) (frameHead k body))
          (s.begun (parserFor k s.node.state)).mgmt.frame := by
  have h1 := State.receive_start s k h
  have hs : (s.begun (parserFor k s.node.state)).pins.supply = true := by
    rw [← h.supply]
    cases parserFor k s.node.state <;> rfl
  have h2 := State.receive_outside (parserFor k s.node.state) s.relay (s.begun (parserFor k s.node.state))
    (s.begun (parserFor k s.node.state)).mgmt.frame [k] [k] (hiByte (BitVec.ofNat 16 body.length)) hs h.released rfl
    (by simp) (by simp) (by simp [Config.maxPositions]) (by simp)
  have h3 := State.receive_outside (parserFor k s.node.state) s.relay (s.begun (parserFor k s.node.state))
    (s.begun (parserFor k s.node.state)).mgmt.frame [k, hiByte (BitVec.ofNat 16 body.length)]
    [k, hiByte (BitVec.ofNat 16 body.length)] (loByte (BitVec.ofNat 16 body.length)) hs h.released rfl
    (by simp) (by simp) (by simp [Config.maxPositions])
    (by
      intro _
      have h4 := frameHead_length k body hn
      have h5 : (frameHead k body).getD 1 0 = hiByte (BitVec.ofNat 16 body.length) := rfl
      have h6 : (frameHead k body).getD 2 0 = loByte (BitVec.ofNat 16 body.length) := rfl
      rw [h5, h6] at h4
      simpa using h4.trans_le hn)
  have h7 : Symbol.frameStart :: (frameHead k body).map Symbol.byte
      = [.frameStart, .byte k] ++ [.byte (hiByte (BitVec.ofNat 16 body.length)),
          .byte (loByte (BitVec.ofNat 16 body.length))] := rfl
  rw [h7, List.foldl_append, h1]
  simp only [List.foldl]
  exact (congrArg (fun x => State.receive x _) h2).trans h3

theorem State.endSlots_wire (s : State) (r : Relay) (m : MgmtFrame) (g : Bool) :
    (s.wire r m).endSlots g = (s.endSlots g).wire r m := by
  have h1 : ∀ (t : State) (x : Setpoint), (t.wire r m).takeRecord x = (t.takeRecord x).wire r m := by
    intro t x
    have e1 : (t.wire r m).timer = t.timer := rfl
    have e2 : (t.wire r m).queue = t.queue := rfl
    simp only [State.takeRecord, e1, e2]
    cases (classify t.timer.period (t.queue.get x.chan).records x).counter <;> rfl
  have h2 : ∀ (l : List Setpoint) (t : State),
      l.foldl State.takeRecord (t.wire r m) = (l.foldl State.takeRecord t).wire r m := by
    intro l
    induction l with
    | nil => intro t; rfl
    | cons x l ih => intro t; rw [List.foldl_cons, List.foldl_cons, h1, ih]
  have h3 : ∀ (l : List Setpoint) (t : State), (t.wire r m).takeArrival l = (t.takeArrival l).wire r m := by
    intro l t
    have e1 : (t.wire r m).node = t.node := rfl
    simp only [State.takeArrival, e1, h2]
    split <;> rfl
  cases g
  · rfl
  · exact h3 s.slots.staging (s.withSlots fun p => { p with walker := .idle, staging := [], cur := none })

theorem State.endParser_wire (s : State) (r : Relay) (m : MgmtFrame) (p : Parser) (g : Bool) :
    (s.wire r m).endParser p g = (s.endParser p g).wire r m := by
  cases p
  · rfl
  · exact State.endSlots_wire s r m g
  · rfl
  · have e1 : (s.wire r m).roll = s.roll := rfl
    have e2 : ∀ a, (s.wire r m).adopt a = (s.adopt a).wire r m := by
      intro a
      have e3 : (s.wire r m).node = s.node := rfl
      simp only [State.adopt, e3]
      cases s.node.state <;> rfl
    simp only [State.endParser, State.endRoll, e1, e2]
    cases g <;> cases s.roll.staged <;> rfl

theorem putTrailer_snoc (l : List Symbol) (a b : Symbol) (w : Word) :
    putTrailer (l ++ [a, b]) w = l ++ [.byte (hiByte w), .byte (loByte w)] := by
  simp [putTrailer]

/-- FRAME_END of an undamaged frame (R123, R124). -/
theorem State.receive_end (p : Parser) (r0 : Relay) (w : State) (m : MgmtFrame) (k : Byte) (body outs : List Byte)
    (hs : w.pins.supply = true) (hb : r0.bypass = false) (hd : r0.line.length = Config.forwardDelay)
    (hn : body.length ≤ Config.maxBody) (hf : fixedPart (some k) ≤ body.length)
    (_hl : outs.length = (frameBytes k body).length) :
    ∃ R, r0.Passed R ([Symbol.frameStart] ++ (outs ++ wordBytes (crc16 outs)).map Symbol.byte ++ [Symbol.frameEnd])
      ∧ (w.wire (r0.during p (frameBytes k body ++ wordBytes (crc16 (frameBytes k body)))
            (outs ++ wordBytes (crc16 (frameBytes k body)))) m).receive .frameEnd
          = (if k = kindCycle then ((w.count .framesGood).endParser p true).goodCycle
              else (w.count .framesGood).endParser p true).wire R m := by
  obtain ⟨hsym, hlen, hrx, hfr, hby⟩ := Relay.during_spec r0 p
    (frameBytes k body ++ wordBytes (crc16 (frameBytes k body))) (outs ++ wordBytes (crc16 (frameBytes k body)))
  have hgood := FrameCheck.over_good p k body (outs ++ wordBytes (crc16 (frameBytes k body))) hn hf
  have hfive : 5 ≤ (frameBytes k body ++ wordBytes (crc16 (frameBytes k body))).length := by
    simp [frameBytes, wordBytes]
  have hcrc : (FrameCheck.over p (frameBytes k body ++ wordBytes (crc16 (frameBytes k body)))
      (outs ++ wordBytes (crc16 (frameBytes k body)))).trailer = crc16 outs := by
    rw [FrameCheck.trailer, hgood, if_pos rfl]
    simp [FrameCheck.over, wordBytes]
  have hkind : (FrameCheck.over p (frameBytes k body ++ wordBytes (crc16 (frameBytes k body)))
      (outs ++ wordBytes (crc16 (frameBytes k body)))).kind = some k := rfl
  generalize hR : r0.during p (frameBytes k body ++ wordBytes (crc16 (frameBytes k body)))
    (outs ++ wordBytes (crc16 (frameBytes k body))) = R1 at hsym hlen hrx hfr hby
  generalize hF : FrameCheck.over p (frameBytes k body ++ wordBytes (crc16 (frameBytes k body)))
    (outs ++ wordBytes (crc16 (frameBytes k body))) = F at hfr hgood hcrc hkind
  have hpos : 2 ≤ F.pos := by
    rw [← hF]
    exact le_trans (by decide) hfive
  have hpar : F.parser = p := by rw [← hF]; rfl
  obtain ⟨l, a, b, hline⟩ : ∃ l a b, R1.line = l ++ [a, b] := by
    have h20 : R1.line.length = 20 := hlen.trans hd
    refine ⟨R1.line.take 18, R1.line[18], R1.line[19], ?_⟩
    apply List.ext_getElem
    · simp [h20]
    · intro i h1 h2
      by_cases h3 : i < 18
      · rw [List.getElem_append_left (by simp; omega)]
        simp
      · rw [List.getElem_append_right (by simp; omega)]
        obtain rfl | rfl : i = 18 ∨ i = 19 := by omega
        · simp [h20]
        · simp [h20]
  refine ⟨({ R1 with rx := .idle, frame := .clear, line := putTrailer R1.line (crc16 outs) } : Relay).forward
    .frameEnd, ⟨?_, ?_, by simp, by simp, by simp [hby]⟩, ?_⟩
  · rw [Relay.forward_sent_line]
    simp only [hline, putTrailer_snoc]
    rw [hline] at hsym
    have e1 : (R1.sent ++ l) ++ [a, b]
        = (r0.line ++ Symbol.frameStart :: outs.map Symbol.byte)
            ++ [.byte (hiByte (crc16 (frameBytes k body))), .byte (loByte (crc16 (frameBytes k body)))] := by
      simpa [wordBytes] using hsym
    have e2 := (List.append_inj' e1 rfl).1
    rw [← List.append_assoc, e2]
    simp [wordBytes]
  · rw [Relay.forward_line_length, ← hlen]
    simp only [hline, putTrailer_snoc]
    simp
  · have e1 := State.receive_ready (w.wire R1 m) .frameEnd hs (hby.trans hb)
    rw [e1]
    have e2 : (w.wire R1 m).relay = R1 := rfl
    simp only [State.relaySymbol, e2, hrx]
    simp only [State.endFrame, e2, hfr, hgood, hpar, hcrc, hkind, if_pos hpos, if_true]
    have e3 : ({ (w.wire R1 m).count .framesGood with
        relay := { ((w.wire R1 m).count .framesGood).relay with
          rx := .idle, frame := .clear,
          line := putTrailer ((w.wire R1 m).count .framesGood).relay.line (crc16 outs) } } : State)
        = (w.count .framesGood).wire
            { R1 with rx := .idle, frame := .clear, line := putTrailer R1.line (crc16 outs) } m := rfl
    rw [e3, State.endParser_wire]
    have e4 : ∀ (x : State) (r : Relay), (x.wire r m).goodCycle = x.goodCycle.wire r m := by
      intro x r
      have e5 : (x.wire r m).node = x.node := rfl
      simp only [State.goodCycle, e5]
      split <;> rfl
    by_cases hk : k = kindCycle
    · simp only [hk, and_self, if_true, e4]
      rfl
    · simp only [Option.some.injEq, hk, and_false, if_false]
      rfl

end Sys2Proof.Machine
end

