-- ==== Sys2Proof/Laws/Frame.lean ====
section
/-! SUPPORT. What a whole undamaged frame does, said once: any frame (R117, R123, R124), a frame forwarded untouched
(R125), and a request (R146 to R151, R159). -/

namespace Sys2Proof.Machine

/-- Body bytes `l` of an undamaged frame arrive, `l'` leave in their places, and the state and the engine's frame
state change from `s`, `m` to `s'`, `m'`. -/
def Run (p : Parser) (r0 : Relay) (s : State) (m : MgmtFrame) (ins outs l l' : List Byte) (s' : State)
    (m' : MgmtFrame) : Prop :=
  (l.map Symbol.byte).foldl State.receive (s.wire (r0.during p ins outs) m)
    = s'.wire (r0.during p (ins ++ l) (outs ++ l')) m'

theorem Run.nil (p : Parser) (r0 : Relay) (s : State) (m : MgmtFrame) (ins outs : List Byte) :
    Run p r0 s m ins outs [] [] s m := by
  simp [Run]

theorem Run.trans {p : Parser} {r0 : Relay} {s s1 s2 : State} {m m1 m2 : MgmtFrame}
    {ins outs l l' k k' : List Byte} (h1 : Run p r0 s m ins outs l l' s1 m1)
    (h2 : Run p r0 s1 m1 (ins ++ l) (outs ++ l') k k' s2 m2) :
    Run p r0 s m ins outs (l ++ k) (l' ++ k') s2 m2 := by
  unfold Run at *
  rw [List.map_append, List.foldl_append, h1, h2, List.append_assoc, List.append_assoc]

/-- One body byte. -/
theorem Run.byte {p : Parser} {r0 : Relay} {s s' : State} {m m' : MgmtFrame} {ins outs : List Byte} {b b' : Byte}
    {n : Nat} (hs : s.pins.supply = true) (hb : r0.bypass = false) (hl : outs.length = ins.length)
    (h3 : 3 ≤ ins.length) (hi : ins.length < 3 + n)
    (hn : (wordOf (ins.getD 1 0) (ins.getD 2 0)).toNat = n) (hm : n ≤ Config.maxBody)
    (step : ∀ R : Relay, R.frame.symErr = false → R.frame.malformed = false → R.frame.parser = p →
      R.frame.bodyLen = n → (s.wire R m).parse b (ins.length - 3) = (s'.wire R m', b')) :
    Run p r0 s m ins outs [b] [b'] s' m' :=
  State.receive_body p r0 s s' m m' ins outs b b' n hs hb hl h3 hi hn hm step

/-- A whole undamaged frame of any kind: the parser's run over its body decides what leaves and what changes
(R117, R123, R124). -/
theorem State.feed_frame (s : State) (k : Byte) (body outs : List Byte) (w : State) (m : MgmtFrame) (h : s.Ready)
    (hn : body.length ≤ Config.maxBody) (hf : fixedPart (some k) ≤ body.length)
    (hs : w.pins.supply = true) (hl : outs.length = body.length)
    (run : Run (parserFor k s.node.state) s.relay (s.begun (parserFor k s.node.state))
      (s.begun (parserFor k s.node.state)).mgmt.frame (frameHead k body) (frameHead k body) body outs w m) :
    ∃ R, s.relay.Passed R (frameSymbols k outs)
      ∧ s.feed (frameSymbols k body)
        = (if k = kindCycle then ((w.count .framesGood).endParser (parserFor k s.node.state) true).goodCycle
            else (w.count .framesGood).endParser (parserFor k s.node.state) true).wire R m := by
  have hmax : Config.maxBody = 1020 := rfl
  have hpos : Config.maxPositions = 1025 := rfl
  have hh : (frameHead k body).length = 3 := rfl
  have hlen : ∀ l : List Byte, (wordOf ((frameHead k body ++ l).getD 1 0) ((frameHead k body ++ l).getD 2 0)).toNat
      = body.length := fun l => frameHead_length k body hn
  have e1 := State.receive_head s k body h hn
  have e2 := State.receive_outside (parserFor k s.node.state) s.relay w m (frameHead k body ++ body)
    (frameHead k body ++ outs) (hiByte (crc16 (frameBytes k body))) hs h.released (by simp [hl]) (by simp [hh])
    (Or.inr (by rw [hlen]; simp [hh])) (by simp [hh]; omega) (by
      simp [hh]
      omega)
  have e3 := State.receive_outside (parserFor k s.node.state) s.relay w m
    (frameHead k body ++ body ++ [hiByte (crc16 (frameBytes k body))])
    (frameHead k body ++ outs ++ [hiByte (crc16 (frameBytes k body))]) (loByte (crc16 (frameBytes k body))) hs
    h.released (by simp [hl]) (by simp [hh]) (Or.inr (by rw [List.append_assoc, hlen]; simp [hh]))
    (by simp [hh]; omega) (by
      simp [hh]
      omega)
  have hfb : frameBytes k outs = frameHead k body ++ outs := by
    simp [frameBytes, frameHead, hl]
  obtain ⟨R, hR, e4⟩ := State.receive_end (parserFor k s.node.state) s.relay w m k body (frameBytes k outs) hs
    h.released h.delay hn hf (by simp [frameBytes, hl])
  refine ⟨R, hR, ?_⟩
  have hsplit : frameSymbols k body = (Symbol.frameStart :: (frameHead k body).map Symbol.byte)
      ++ body.map Symbol.byte ++ [.byte (hiByte (crc16 (frameBytes k body)))]
      ++ [.byte (loByte (crc16 (frameBytes k body)))] ++ [.frameEnd] := by
    simp [frameSymbols, frameBytes_head, wordBytes]
  have e5 : w.wire (s.relay.during (parserFor k s.node.state)
        (frameHead k body ++ body ++ [hiByte (crc16 (frameBytes k body))] ++ [loByte (crc16 (frameBytes k body))])
        (frameHead k body ++ outs ++ [hiByte (crc16 (frameBytes k body))] ++ [loByte (crc16 (frameBytes k body))])) m
      = w.wire (s.relay.during (parserFor k s.node.state)
        (frameBytes k body ++ wordBytes (crc16 (frameBytes k body)))
        (frameBytes k outs ++ wordBytes (crc16 (frameBytes k body)))) m := by
    rw [hfb, frameBytes_head]
    simp [wordBytes]
  unfold Run at run
  rw [State.feed, hsplit]
  simp only [List.foldl_append]
  rw [e1, run]
  simp only [List.foldl]
  rw [e2, e3, e5, e4]

/-- A frame forwarded untouched (R125): the bytes leave as they arrived, and the frame is counted. -/
theorem State.feed_untouched (s : State) (k : Byte) (body : List Byte) (h : s.Ready)
    (hn : body.length ≤ Config.maxBody) (hf : fixedPart (some k) ≤ body.length)
    (hp : parserFor k s.node.state = .none) :
    ∃ R, s.relay.Passed R (frameSymbols k body)
      ∧ s.feed (frameSymbols k body)
        = { (if k = kindCycle then (s.count .framesGood).goodCycle else s.count .framesGood) with relay := R } := by
  have run : ∀ l ins outs : List Byte, outs.length = ins.length → 3 ≤ ins.length →
      ins.length + l.length ≤ 3 + body.length →
      (wordOf (ins.getD 1 0) (ins.getD 2 0)).toNat = body.length →
      Run .none s.relay s s.mgmt.frame ins outs l l s s.mgmt.frame := by
    intro l
    induction l with
    | nil => intro ins outs _ _ _ _; exact Run.nil _ _ _ _ _ _
    | cons b l ih =>
      intro ins outs hl h3 hi hw
      simp only [List.length_cons] at hi
      refine Run.trans (l := [b]) (l' := [b]) (Run.byte (n := body.length) h.supply h.released hl h3 (by omega) hw hn
        ?_) (ih _ _ (by simp [hl]) (by simp; omega) (by simp; omega) ?_)
      · intro R _ _ hR _
        have e : (s.wire R s.mgmt.frame).relay = R := rfl
        simp only [State.parse, e, hR]
      · rw [← hw]
        match ins, h3 with
        | _ :: _ :: _ :: _, _ => rfl
  have run' := run body (frameHead k body) (frameHead k body) rfl (by simp [frameHead, wordBytes])
    (by simp [frameHead, wordBytes, Nat.add_comm]) (frameHead_length k body hn)
  obtain ⟨R, hR, he⟩ := State.feed_frame s k body body s s.mgmt.frame h hn hf h.supply rfl (by rw [hp]; exact run')
  refine ⟨R, hR, he.trans ?_⟩
  rw [hp]
  simp only [State.endParser]
  split
  · simp only [State.goodCycle]
    split <;> rfl
  · rfl

/-! ## Requests (R146 to R151) -/

/-- A body byte of a MGMT frame in a phase that decides nothing. -/
theorem Run.mgmt {r0 : Relay} {s : State} {m : MgmtFrame} (m' : MgmtFrame) {ins outs : List Byte} {b : Byte} (b' : Byte)
    {n : Nat} (hs : s.pins.supply = true) (hb : r0.bypass = false) (hl : outs.length = ins.length)
    (h3 : 3 ≤ ins.length) (hi : ins.length < 3 + n)
    (hn : (wordOf (ins.getD 1 0) (ins.getD 2 0)).toNat = n) (hm : n ≤ Config.maxBody)
    (step : ∀ R : Relay, (s.wire R m).mgmtByte b n = (s.wire R m', b')) :
    Run .mgmt r0 s m ins outs [b] [b'] s m' :=
  Run.byte hs hb hl h3 hi hn hm fun R _ _ hp hbl => by
    have e : (s.wire R m).relay = R := rfl
    simp only [State.parse, e, hp, hbl, step]

/-- The length field stays where it is while more bytes arrive. -/
theorem head_stays (ins l : List Byte) (h : 3 ≤ ins.length) :
    (wordOf ((ins ++ l).getD 1 0) ((ins ++ l).getD 2 0)) = wordOf (ins.getD 1 0) (ins.getD 2 0) := by
  match ins, h with
  | _ :: _ :: _ :: _, _ => rfl

/-- The argument bytes of a request (R146, R149). -/
theorem Run.mgmtArgs (r0 : Relay) (s : State) (n : Nat) (hs : s.pins.supply = true) (hb : r0.bypass = false)
    (hm : n ≤ Config.maxBody) (l : List Byte) (m : MgmtFrame) (ins outs : List Byte)
    (hl : outs.length = ins.length) (h3 : 3 ≤ ins.length) (hi : ins.length + l.length ≤ 3 + n)
    (hn : (wordOf (ins.getD 1 0) (ins.getD 2 0)).toNat = n)
    (hp : m.phase = afterArgs m.args.length m.argLen) (ha : m.args.length + l.length = m.argLen) :
    Run .mgmt r0 s m ins outs l l s
      { m with phase := .check, args := m.args ++ l, crc := l.foldl crc8Step m.crc } := by
  induction l generalizing m ins outs with
  | nil =>
    have e : ({ m with phase := .check, args := m.args ++ [], crc := m.crc } : MgmtFrame) = m := by
      have : m.phase = .check := by
        rw [hp, afterArgs, if_neg]
        simp at ha
        omega
      cases m
      simp_all
    simp only [List.foldl_nil, e]
    exact Run.nil _ _ _ _ _ _
  | cons b l ih =>
    simp only [List.length_cons] at hi ha
    have hph : m.phase = .args := by rw [hp, afterArgs, if_pos]; omega
    have e1 := Run.mgmt (m := m) (r0 := r0) (s := s) (outs := outs)
      { m with phase := afterArgs (m.args.length + 1) m.argLen, args := m.args ++ [b], crc := crc8Step m.crc b } b
      hs hb hl h3 (by omega) hn hm (fun R => by
        have e : (s.wire R m).mgmt.frame = m := rfl
        simp only [State.mgmtByte, e, hph]
        rfl)
    have e2 := ih { m with phase := afterArgs (m.args.length + 1) m.argLen, args := m.args ++ [b],
                           crc := crc8Step m.crc b } (ins ++ [b]) (outs ++ [b]) (by simp [hl]) (by simp; omega)
      (by simp; omega) (by rw [head_stays _ _ h3, hn]) (by simp) (by simp; omega)
    have e3 := Run.trans e1 e2
    simpa using e3

/-- The bytes of a reply area pass, the prepared reply in their places (R151, R159). -/
theorem Run.mgmtReply (r0 : Relay) (s : State) (n : Nat) (hs : s.pins.supply = true) (hb : r0.bypass = false)
    (hm : n ≤ Config.maxBody) (l : List Byte) (m : MgmtFrame) (ins outs : List Byte)
    (hl : outs.length = ins.length) (h3 : 3 ≤ ins.length) (hi : ins.length + l.length ≤ 3 + n)
    (hn : (wordOf (ins.getD 1 0) (ins.getD 2 0)).toNat = n)
    (hp : m.phase = if m.replyPos < m.capacity then .reply else .tail) (ha : m.replyPos + l.length = m.capacity) :
    Run .mgmt r0 s m ins outs l (l.mapIdx fun i b => replyByte m.reply (m.replyPos + i) b) s
      { m with phase := .tail, replyPos := m.capacity } := by
  induction l generalizing m ins outs with
  | nil =>
    have e : ({ m with phase := .tail, replyPos := m.capacity } : MgmtFrame) = m := by
      simp at ha
      have : m.phase = .tail := by
        rw [hp, if_neg]
        omega
      cases m
      simp_all
    rw [e]
    exact Run.nil _ _ _ _ _ _
  | cons b l ih =>
    simp only [List.length_cons] at hi ha
    have hph : m.phase = .reply := by rw [hp, if_pos]; omega
    have e1 := Run.mgmt (m := m) (r0 := r0) (s := s) (outs := outs)
      { m with phase := if m.replyPos + 1 < m.capacity then .reply else .tail, replyPos := m.replyPos + 1 }
      (replyByte m.reply m.replyPos b) hs hb hl h3 (by omega) hn hm (fun R => by
        have e : (s.wire R m).mgmt.frame = m := rfl
        simp only [State.mgmtByte, e, hph]
        rfl)
    have e2 := ih { m with phase := if m.replyPos + 1 < m.capacity then .reply else .tail,
                           replyPos := m.replyPos + 1 } (ins ++ [b])
      (outs ++ [replyByte m.reply m.replyPos b]) (by simp [hl]) (by simp; omega)
      (by simp; omega) (by rw [head_stays _ _ h3, hn]) (by simp) (by simp; omega)
    have e3 := Run.trans e1 e2
    simpa [List.mapIdx_cons, Nat.add_comm, Nat.add_left_comm] using e3

/-- Body bytes after the reply area pass untouched (R146). -/
theorem Run.mgmtTail (r0 : Relay) (s : State) (n : Nat) (hs : s.pins.supply = true) (hb : r0.bypass = false)
    (hm : n ≤ Config.maxBody) (l : List Byte) (m : MgmtFrame) (ins outs : List Byte)
    (hl : outs.length = ins.length) (h3 : 3 ≤ ins.length) (hi : ins.length + l.length ≤ 3 + n)
    (hn : (wordOf (ins.getD 1 0) (ins.getD 2 0)).toNat = n) (hp : m.phase = .tail) :
    Run .mgmt r0 s m ins outs l l s m := by
  induction l generalizing ins outs with
  | nil => exact Run.nil _ _ _ _ _ _
  | cons b l ih =>
    simp only [List.length_cons] at hi
    have e1 := Run.mgmt (m := m) (r0 := r0) (s := s) (outs := outs) (b := b) m b hs hb hl h3 (by omega) hn hm (fun R => by
        have e : (s.wire R m).mgmt.frame = m := rfl
        simp only [State.mgmtByte, e, hp])
    exact Run.trans e1 (ih (ins ++ [b]) (outs ++ [b]) (by simp [hl]) (by simp; omega) (by simp; omega)
      (by rw [head_stays _ _ h3, hn]))

theorem mapIdx_reply (rep : Option Reply) (area : List Byte) :
    (area.mapIdx fun i b => replyByte rep i b) = Reply.over rep area := by
  apply List.ext_getElem?
  intro i
  rw [List.getElem?_mapIdx]
  match rep with
  | none => simp [Reply.over, replyByte]
  | some (.bytes l) =>
    simp only [Reply.over, replyByte, List.getElem?_append, List.getElem?_take, List.getElem?_drop,
      List.length_take, List.getD]
    by_cases h1 : i < area.length
    · by_cases h2 : i < l.length
      · have h3 : i < min area.length l.length := by omega
        simp [h1, h2]
      · have h3 : ¬ i < min area.length l.length := by omega
        have h4 : l.length + (i - min area.length l.length) = i := by omega
        have h5 : l[i]? = none := by simp; omega
        simp [h3, h4, h5]
    · have h3 : area[i]? = none := by simp; omega
      have h4 : ¬ i < min area.length l.length := by omega
      have h5 : area[l.length + (i - min area.length l.length)]? = none := by simp; omega
      simp [h3, h4, h5]
  | some (.tally k) =>
    simp only [Reply.over, replyByte, List.getElem?_modify]
    cases area[i]? with
    | none => simp
    | some b =>
      by_cases h : k = i
      · simp [h]
      · have h2 : ¬ i = k := fun e => h e.symm
        simp [h, h2]

theorem Reply.over_length (rep : Option Reply) (area : List Byte) : (Reply.over rep area).length = area.length := by
  rw [← mapIdx_reply, List.length_mapIdx]

/-- No owner touches the pins. -/
theorem own_pins (k : ReqKind) (seq : Byte) (args : List Byte) (s : State) : (own k seq args s).st.pins = s.pins := by
  cases k <;> simp only [own]
  case identify => rfl
  case readEntry => simp only [ownReadEntry, readBank]; (repeat' split) <;> rfl
  case writeEntry =>
    simp only [ownWriteEntry, writeBank, writeTripInput, writeGroup, writeNode]
    (repeat' split) <;> rfl
  case copyActive => simp only [ownCopyActive]; (repeat' split) <;> rfl
  case commit => unfold ownCommit commitConfig commitLive; (repeat' split) <;> rfl
  case arm => simp only [ownArm]; (repeat' split) <;> rfl
  case align => simp only [ownAlign]; (repeat' split) <;> rfl
  case trim => simp only [ownTrim]; (repeat' split) <;> rfl
  case stop => simp only [ownStop]; (repeat' split) <;> simp [answer]
  case clear => simp only [ownClear]; (repeat' split) <;> rfl
  case restart => unfold ownRestart State.restart State.endJobForRestart; (repeat' split) <;> simp [answer]
  case tripAck => unfold ownTripAck State.enableGroup; (repeat' split) <;> simp [answer]
  case faultRead => rfl
  case faultPop => simp only [ownFaultPop]; (repeat' split) <;> rfl
  case countersRead => rfl
  case countersClear => rfl
  case loadBegin => simp only [ownLoadBegin]; (repeat' split) <;> rfl
  case loadData => simp only [ownLoadData]; (repeat' split) <;> rfl
  case loadEnd => simp only [ownLoadEnd]; (repeat' split) <;> rfl
  case loadCancel => simp only [ownLoadCancel]; (repeat' split) <;> rfl

theorem decideKind_pins (k : ReqKind) (seq : Byte) (args : List Byte) (s : State) :
    (decideKind k seq args s).1.st.pins = s.pins := by
  have h : ∀ t : State, (decideNew k seq args t).st.pins = t.pins := by
    intro t
    unfold decideNew
    split
    · exact own_pins k seq args t
    · rfl
  unfold decideKind
  split
  · split
    · rfl
    · exact h { s with mgmt := s.mgmt.makeRoom seq }
  · exact h s

theorem State.outcome_pins (s : State) (seq : Byte) (args : List Byte) (ind : MatchInd) (kind : Byte) (capacity : Nat) :
    (s.outcome seq args ind kind capacity).1.pins = s.pins := by
  unfold State.outcome State.outcomeAddressed State.outcomeBroadcast
  (repeat' split) <;> first | rfl | exact decideKind_pins _ _ _ _

/-- The bytes of a request's body before its arguments. -/
def requestHead (r : Request) (kind : Byte) (args : List Byte) : List Byte :=
  [r.dest, r.seq, kind, BitVec.ofNat 8 args.length]

/-- The four bytes before the arguments (R147, R148). -/
theorem Run.requestHead (s : State) (r : Request) (kind : Byte) (args hd : List Byte) (n : Nat)
    (hs : s.pins.supply = true) (hb : s.relay.bypass = false) (hm : n ≤ Config.maxBody) (h3 : hd.length = 3)
    (hw : (wordOf (hd.getD 1 0) (hd.getD 2 0)).toNat = n) (ha : args.length ≤ 48) (hn : 6 + args.length ≤ n) :
    Run .mgmt s.relay (s.begun .mgmt) .clear hd hd (requestHead r kind args) (requestHead r kind args) s
      { phase := afterArgs 0 args.length, ind := matchOf r.dest s.roll.address, seq := r.seq, kind := kind,
        argLen := args.length, args := [], crc := crc8 (Machine.requestHead r kind args), checkOk := false,
        capacity := 0, reply := none, replyPos := 0 } := by
  have hLa : (BitVec.ofNat 8 args.length).toNat = args.length := by
    rw [BitVec.toNat_ofNat]
    omega
  let m1 : MgmtFrame :=
    { MgmtFrame.clear with phase := .seq, ind := matchOf r.dest s.roll.address, crc := crc8 [r.dest] }
  let m2 : MgmtFrame := { m1 with phase := .kind, seq := r.seq, crc := crc8 [r.dest, r.seq] }
  let m3 : MgmtFrame := { m2 with phase := .argLen, kind := kind, crc := crc8 [r.dest, r.seq, kind] }
  have r1 : Run .mgmt s.relay (s.begun .mgmt) .clear hd hd [r.dest] [r.dest] s m1 :=
    Run.byte hs hb rfl (by omega) (by omega) hw hm fun R _ _ hp hbl => by
      have e : ((s.begun .mgmt).wire R .clear).relay = R := rfl
      simp only [State.parse, e, hp]
      rfl
  have r2 : Run .mgmt s.relay s m1 (hd ++ [r.dest]) (hd ++ [r.dest]) [r.seq] [r.seq] s m2 :=
    Run.mgmt m2 _ hs hb rfl (by simp; omega) (by simp; omega) (by rw [head_stays _ _ (by omega), hw]) hm fun R => rfl
  have r3 : Run .mgmt s.relay s m2 (hd ++ [r.dest] ++ [r.seq]) (hd ++ [r.dest] ++ [r.seq]) [kind] [kind] s m3 :=
    Run.mgmt m3 _ hs hb rfl (by simp; omega) (by simp; omega)
      (by rw [List.append_assoc, head_stays _ _ (by omega), hw]) hm fun R => rfl
  have r4 : Run .mgmt s.relay s m3 (hd ++ [r.dest] ++ [r.seq] ++ [kind]) (hd ++ [r.dest] ++ [r.seq] ++ [kind])
      [BitVec.ofNat 8 args.length] [BitVec.ofNat 8 args.length] s _ :=
    Run.mgmt { m3 with phase := afterArgs 0 args.length, argLen := args.length, args := [],
                       crc := crc8 (Machine.requestHead r kind args) } _ hs hb rfl
      (by simp) (by simp; omega)
      (by rw [List.append_assoc, List.append_assoc, head_stays _ _ (by omega), hw]) hm fun R => by
        have e : (s.wire R m3).mgmt.frame.phase = .argLen := rfl
        have c : ¬ (48 < args.length ∨ n < 6 + args.length) := by omega
        simp only [State.mgmtByte, e, hLa, if_neg c]
        rfl
  exact r1.trans (r2.trans (r3.trans r4))

/-- The body of a request up to its check (R146 to R149). -/
theorem Run.requestChecked (s : State) (r : Request) (kind : Byte) (args hd : List Byte) (n : Nat)
    (hs : s.pins.supply = true) (hb : s.relay.bypass = false) (hm : n ≤ Config.maxBody) (h3 : hd.length = 3)
    (hw : (wordOf (hd.getD 1 0) (hd.getD 2 0)).toNat = n) (ha : args.length ≤ 48) (hn : 6 + args.length ≤ n) :
    Run .mgmt s.relay (s.begun .mgmt) .clear hd hd
      (Machine.requestHead r kind args ++ (args ++ [crc8 (Machine.requestHead r kind args ++ args)]))
      (Machine.requestHead r kind args ++ (args ++ [crc8 (Machine.requestHead r kind args ++ args)])) s
      { phase := .capacity, ind := matchOf r.dest s.roll.address, seq := r.seq, kind := kind,
        argLen := args.length, args := args, crc := crc8 (Machine.requestHead r kind args ++ args), checkOk := true,
        capacity := 0, reply := none, replyPos := 0 } := by
  have h4 : (Machine.requestHead r kind args).length = 4 := rfl
  have r1 := Run.requestHead s r kind args hd n hs hb hm h3 hw ha hn
  have r5 := Run.mgmtArgs s.relay s n hs hb hm args
    { phase := afterArgs 0 args.length, ind := matchOf r.dest s.roll.address, seq := r.seq, kind := kind,
      argLen := args.length, args := [], crc := crc8 (Machine.requestHead r kind args), checkOk := false,
      capacity := 0, reply := none, replyPos := 0 }
    (hd ++ Machine.requestHead r kind args) (hd ++ Machine.requestHead r kind args) rfl (by simp [h4])
    (by simp [h4]; omega) (by rw [head_stays _ _ (by omega), hw]) rfl (Nat.zero_add _)
  have ecrc : args.foldl crc8Step (crc8 (Machine.requestHead r kind args))
      = crc8 (Machine.requestHead r kind args ++ args) := by
    simp [crc8]
  simp only [List.nil_append, ecrc] at r5
  generalize crc8 (Machine.requestHead r kind args ++ args) = c at *
  refine r1.trans (r5.trans ?_)
  refine Run.mgmt _ c hs hb rfl (by simp [h4]; omega) (by simp [h4]; omega)
    (by rw [List.append_assoc, head_stays _ _ (by omega), hw]) hm fun R => ?_
  simp only [State.mgmtByte, State.wire, State.withMgmt, decide_true]

/-- The body of a request from its reply capacity on: the decision, the reply, the padding (R149, R151). -/
theorem Run.requestDecided (s : State) (r : Request) (kind : Byte) (args ins outs : List Byte) (n : Nat) (c : Byte)
    (ind : MatchInd) (O : State × Option Reply)
    (hO : s.outcome r.seq args ind kind r.area.length = O)
    (hs : s.pins.supply = true) (hb : s.relay.bypass = false) (hm : n ≤ Config.maxBody)
    (h3 : 3 ≤ ins.length) (hl : outs.length = ins.length)
    (hw : (wordOf (ins.getD 1 0) (ins.getD 2 0)).toNat = n) (hc : r.area.length ≤ 64)
    (hn : 6 + args.length + r.area.length + r.padding.length ≤ n)
    (hi : ins.length + 1 + r.area.length + r.padding.length ≤ 3 + n) :
    ∃ m', Run .mgmt s.relay s
      { phase := .capacity, ind := ind, seq := r.seq, kind := kind,
        argLen := args.length, args := args, crc := c, checkOk := true,
        capacity := 0, reply := none, replyPos := 0 }
      ins outs ([BitVec.ofNat 8 r.area.length] ++ (r.area ++ r.padding))
      ([BitVec.ofNat 8 r.area.length] ++ (Reply.over O.2 r.area ++ r.padding)) O.1 m' := by
  have hO2 : O.1.pins.supply = true := by
    rw [← hO, State.outcome_pins]
    exact hs
  have hLc : (BitVec.ofNat 8 r.area.length).toNat = r.area.length := by
    rw [BitVec.toNat_ofNat]
    omega
  have r7 : Run .mgmt s.relay s
      { phase := .capacity, ind := ind, seq := r.seq, kind := kind,
        argLen := args.length, args := args, crc := c, checkOk := true,
        capacity := 0, reply := none, replyPos := 0 }
      ins outs [BitVec.ofNat 8 r.area.length] [BitVec.ofNat 8 r.area.length] O.1
      { phase := if r.area.length = 0 then .tail else .reply, ind := ind, seq := r.seq, kind := kind,
        argLen := args.length, args := args, crc := c, checkOk := true,
        capacity := r.area.length, reply := O.2, replyPos := 0 } :=
    Run.byte hs hb hl h3 (by omega) hw hm fun R h1 h2 hp hbl => by
      have c1 : ¬ (64 < r.area.length ∨ n < 6 + args.length + r.area.length) := by omega
      have e5 := State.decideRequest_wire s R
        { phase := if r.area.length = 0 then .tail else .reply, ind := ind, seq := r.seq, kind := kind,
          argLen := args.length, args := args, crc := c, checkOk := true,
          capacity := r.area.length, reply := none, replyPos := 0 } r.area.length rfl rfl h1 h2
      dsimp only at e5
      rw [hO] at e5
      have e1 : ∀ m, (s.wire R m).relay = R := fun _ => rfl
      have e2 : ∀ m, (s.wire R m).mgmt.frame = m := fun _ => rfl
      simp only [State.parse, e1, hp, hbl, State.mgmtByte, e2, hLc, State.capacityByte, if_neg c1]
      rw [← e5]
      rfl
  have r8 := Run.mgmtReply s.relay O.1 n hO2 hb hm r.area
    { phase := if r.area.length = 0 then .tail else .reply, ind := ind, seq := r.seq, kind := kind,
      argLen := args.length, args := args, crc := c, checkOk := true,
      capacity := r.area.length, reply := O.2, replyPos := 0 }
    (ins ++ [BitVec.ofNat 8 r.area.length]) (outs ++ [BitVec.ofNat 8 r.area.length])
    (by simp [hl]) (by simp; omega) (by simp; omega) (by rw [head_stays _ _ h3, hw])
    (by
      dsimp only
      by_cases h0 : r.area.length = 0
      · rw [if_pos h0, if_neg (by omega)]
      · rw [if_neg h0, if_pos (by omega)])
    (Nat.zero_add _)
  have hmap : (r.area.mapIdx fun i b => replyByte O.2 (0 + i) b) = Reply.over O.2 r.area := by
    rw [← mapIdx_reply]
    simp
  dsimp only at r8
  rw [hmap] at r8
  have r9 := Run.mgmtTail s.relay O.1 n hO2 hb hm r.padding
    { phase := .tail, ind := ind, seq := r.seq, kind := kind, argLen := args.length, args := args, crc := c,
      checkOk := true, capacity := r.area.length, reply := O.2, replyPos := r.area.length }
    (ins ++ [BitVec.ofNat 8 r.area.length] ++ r.area)
    (outs ++ [BitVec.ofNat 8 r.area.length] ++ Reply.over O.2 r.area) (by simp [Reply.over_length, hl])
    (by simp; omega) (by simp; omega) (by rw [List.append_assoc, head_stays _ _ h3, hw]) rfl
  exact ⟨_, r7.trans (r8.trans r9)⟩

/-- Everything the passing of an undamaged request does in an addressed node (R146 to R151, R159): the owner's
effects on the state before the frame, one good frame counted, the frame out with the reply in its area. -/
theorem State.feedRequest_spec (s : State) (kind : Byte) (args : List Byte) (r : Request) (h : s.Ready)
    (hu : s.node.state ≠ .unaddressed) (hi : Intact r args) :
    ∃ R m, s.relay.Passed R (requestOut r kind args
          (Reply.over (s.outcome r.seq args (matchOf r.dest s.roll.address) kind r.area.length).2 r.area))
      ∧ s.feedRequest kind args r
        = ((s.outcome r.seq args (matchOf r.dest s.roll.address) kind r.area.length).1.count .framesGood).wire R m := by
  obtain ⟨hd, ha, hc, hbody⟩ := hi
  have hmax : Config.maxBody = 1020 := rfl
  have hp : parserFor kindMgmt s.node.state = .mgmt := by
    revert hu
    cases s.node.state <;> decide
  have hblen : (requestBody r kind args).length = 6 + args.length + r.area.length + r.padding.length := by
    simp [requestBody]
    omega
  have hn : (requestBody r kind args).length ≤ Config.maxBody := by omega
  have hw := frameHead_length kindMgmt (requestBody r kind args) hn
  obtain ⟨m', run2⟩ := Run.requestDecided s r kind args
    (frameHead kindMgmt (requestBody r kind args) ++ (Machine.requestHead r kind args ++ (args
      ++ [crc8 (Machine.requestHead r kind args ++ args)])))
    (frameHead kindMgmt (requestBody r kind args) ++ (Machine.requestHead r kind args ++ (args
      ++ [crc8 (Machine.requestHead r kind args ++ args)])))
    (requestBody r kind args).length (crc8 (Machine.requestHead r kind args ++ args))
    (matchOf r.dest s.roll.address) _ rfl h.supply h.released hn (by simp [frameHead, wordBytes]) rfl
    (by rw [head_stays _ _ (by simp [frameHead, wordBytes]), hw]) hc (by omega)
    (by simp [frameHead, wordBytes, Machine.requestHead]; omega)
  have run1 := Run.requestChecked s r kind args (frameHead kindMgmt (requestBody r kind args))
    (requestBody r kind args).length h.supply h.released hn rfl hw ha (by omega)
  have run := run1.trans run2
  have ebody : (Machine.requestHead r kind args ++ (args ++ [crc8 (Machine.requestHead r kind args ++ args)]))
      ++ ([BitVec.ofNat 8 r.area.length] ++ (r.area ++ r.padding)) = requestBody r kind args := by
    simp [requestBody, Machine.requestHead]
  generalize hO : s.outcome r.seq args (matchOf r.dest s.roll.address) kind r.area.length = O at *
  have eout : (Machine.requestHead r kind args ++ (args ++ [crc8 (Machine.requestHead r kind args ++ args)]))
      ++ ([BitVec.ofNat 8 r.area.length] ++ (Reply.over O.2 r.area ++ r.padding))
      = requestBody { r with area := Reply.over O.2 r.area } kind args := by
    simp [requestBody, Machine.requestHead, Reply.over_length]
  rw [ebody, eout] at run
  have hO2 : O.1.pins.supply = true := by
    rw [← hO, State.outcome_pins]
    exact h.supply
  obtain ⟨R, hR, he⟩ := State.feed_frame s kindMgmt (requestBody r kind args)
    (requestBody { r with area := Reply.over O.2 r.area } kind args) O.1 m' h hn (by rw [hblen]; simp [fixedPart, kindMgmt, kindCycle]; omega) hO2
    (by simp [requestBody, Reply.over_length]) (by rw [hp]; exact run)
  refine ⟨R, m', hR, ?_⟩
  have e1 : s.feedRequest kind args r = s.feed (frameSymbols kindMgmt (requestBody r kind args)) := by
    simp [State.feedRequest, requestSymbols, hd, damaged]
  rw [e1, he, hp]
  rfl

/-- The code of a kind names it (11.8). -/
theorem ReqKind.ofCode_code (k : ReqKind) : ReqKind.ofCode k.code = some k := by
  cases k <;> rfl

/-- A request that reaches the owner (R150 test 5): what its command answers. -/
theorem State.Takes.answers {s : State} {k : ReqKind} {args : List Byte} {r : Request} (h : s.Takes k args r)
    {i : Instr} (hi : exec i s = .next (s.feedRequest k.code args r))
    (hd : (decideKind k r.seq args s).1.data.length ≤ largestData k args) :
    Answers i k.code args r s (decideKind k r.seq args s).1.status false (decideKind k r.seq args s).1.data
      (decideKind k r.seq args s).1.st := by
  obtain ⟨R, m, hR, he⟩ := State.feedRequest_spec s k.code args r h.ready h.addressed h.intact
  have hm : matchOf r.dest s.roll.address = .addressed := by simp [matchOf, h.dest]
  have hroom := h.room
  have hfresh : (decideKind k r.seq args s).2 = false := by
    unfold decideKind
    split
    · rename_i hc
      rw [h.fresh hc]
    · rfl
  have hO : s.outcome r.seq args (matchOf r.dest s.roll.address) k.code r.area.length
      = ((decideKind k r.seq args s).1.st,
          some (.bytes (replyBytes (decideKind k r.seq args s).1.status false (decideKind k r.seq args s).1.data))) := by
    rw [hm]
    simp only [State.outcome, State.outcomeAddressed, ReqKind.ofCode_code]
    rw [if_neg (by omega), hfresh]
  rw [hO] at hR he
  refine ⟨R, m, ?_, ?_⟩
  · rw [hi, he]
    rfl
  · have e : Reply.over (some (.bytes (replyBytes (decideKind k r.seq args s).1.status false
        (decideKind k r.seq args s).1.data))) r.area
        = replyBytes (decideKind k r.seq args s).1.status false (decideKind k r.seq args s).1.data
          ++ r.area.drop (3 + (decideKind k r.seq args s).1.data.length) := by
      simp only [Reply.over]
      rw [List.take_of_length_le (by simp [replyBytes]; omega)]
      have e2 : ∀ n : Nat, n + 1 + 1 + 1 = 3 + n := fun n => by omega
      simp [replyBytes, e2]
    rw [← e]
    exact hR

/-- An addressed request of a cached kind, from the owner's answer on the cache with room made. -/
theorem State.Takes.answers_cached {s t0 t : State} {k : ReqKind} {args data : List Byte} {r : Request} {st : Status}
    (h : s.Takes k args r) {i : Instr} (hi : exec i s = .next (s.feedRequest k.code args r)) (hk : k.cached = true)
    (ho : own k r.seq args { s with mgmt := s.mgmt.makeRoom r.seq } = ⟨t0, st, data⟩)
    (hd : data.length ≤ largestData k args)
    (ht : { t0 with mgmt := t0.mgmt.insert ⟨r.seq, k, st, data⟩ } = t) :
    Answers i k.code args r s st false data t := by
  have hf : decideKind k r.seq args s = (⟨t, st, data⟩, false) := by
    simp only [decideKind, hk, if_true, h.fresh hk, decideCached, decideNew, h.form, ho, ht]
  have := h.answers hi (by rw [hf]; exact hd)
  rwa [hf] at this

/-- An addressed request of a kind that is not cached, from the owner's answer. -/
theorem State.Takes.answers_uncached {s t : State} {k : ReqKind} {args data : List Byte} {r : Request} {st : Status}
    (h : s.Takes k args r) {i : Instr} (hi : exec i s = .next (s.feedRequest k.code args r)) (hk : k.cached = false)
    (ho : own k r.seq args s = ⟨t, st, data⟩) (hd : data.length ≤ largestData k args) :
    Answers i k.code args r s st false data t := by
  have hf : decideKind k r.seq args s = (⟨t, st, data⟩, false) := by
    simp [decideKind, hk, decideNew, h.form, ho]
  have := h.answers hi (by rw [hf]; exact hd)
  rwa [hf] at this

end Sys2Proof.Machine
end

