-- ==== Sys2Proof/Laws/Memory.lean ====
section
/-! SUPPORT. The bank images: every memory operation keeps the canonical form, a byte written reads back, and every
other byte reads as before (R1; log 1). -/

namespace Sys2Proof.Machine

/-! ## The canonical form -/

theorem Memory.wfFrom_mono {a b : Nat} (h : a ≤ b) : ∀ m : Memory, Memory.wfFrom b m = true → Memory.wfFrom a m = true
  | [], _ => rfl
  | (k, v) :: t, hm => by
    simp only [Memory.wfFrom, Bool.and_eq_true, decide_eq_true_eq] at hm ⊢
    exact ⟨⟨⟨by omega, hm.1.1.2⟩, hm.1.2⟩, hm.2⟩

theorem Memory.wfFrom_put (lo a : Nat) (b : Byte) (ha : a < imageSize) (hl : lo ≤ a) :
    ∀ m : Memory, Memory.wfFrom lo m = true → Memory.wfFrom lo (m.put a b) = true := by
  intro m
  induction m generalizing lo with
  | nil =>
    intro _
    simp only [Memory.put]
    split
    · rfl
    · rename_i hb
      simp only [Memory.wfFrom, Bool.and_eq_true, decide_eq_true_eq]
      exact ⟨⟨⟨hl, ha⟩, hb⟩, trivial⟩
  | cons c t ih =>
    obtain ⟨k, v⟩ := c
    intro hm
    have hm' := hm
    simp only [Memory.wfFrom, Bool.and_eq_true, decide_eq_true_eq] at hm
    obtain ⟨⟨⟨h1, h2⟩, h3⟩, h4⟩ := hm
    simp only [Memory.put]
    split
    · split
      · exact hm'
      · rename_i hak hb
        simp only [Memory.wfFrom, Bool.and_eq_true, decide_eq_true_eq]
        exact ⟨⟨⟨hl, ha⟩, hb⟩, ⟨⟨by omega, h2⟩, h3⟩, h4⟩
    · split
      · split
        · exact Memory.wfFrom_mono (by omega) t h4
        · rename_i hak hb
          subst hak
          simp only [Memory.wfFrom, Bool.and_eq_true, decide_eq_true_eq]
          exact ⟨⟨⟨hl, ha⟩, hb⟩, h4⟩
      · simp only [Memory.wfFrom, Bool.and_eq_true, decide_eq_true_eq]
        exact ⟨⟨⟨h1, h2⟩, h3⟩, ih (k + 1) (by omega) h4⟩

theorem Memory.wf_write (m : Memory) (a : Nat) (b : Byte) (h : m.wf = true) : (m.write a b).wf = true := by
  simp only [Memory.write]
  split
  · exact Memory.wfFrom_put 0 a b ‹_› (Nat.zero_le a) m h
  · exact h

/-- A run of bytes written keeps the canonical form. -/
theorem Memory.wf_writeAll (l : List Byte) : ∀ (m : Memory) (a : Nat), m.wf = true → (Memory.writeAll m a l).wf = true := by
  induction l with
  | nil => exact fun m a h => h
  | cons b t ih => exact fun m a h => ih _ _ (Memory.wf_write m a b h)

theorem Memory.wf_nil : Memory.wf [] = true := rfl

/-- The images of the reset state have the canonical form. -/
theorem State.reset_images_wf : State.reset.bank.imgA.wf = true ∧ State.reset.bank.imgB.wf = true := ⟨rfl, rfl⟩

/-! ## Reading -/

theorem Memory.read_below (lo a : Nat) : ∀ m : Memory, Memory.wfFrom lo m = true → a < lo → m.read a = 0
  | [], _, _ => rfl
  | (k, v) :: t, hm, h => by
    simp only [Memory.wfFrom, Bool.and_eq_true, decide_eq_true_eq] at hm
    simp only [Memory.read]
    rw [if_neg (by omega)]
    exact Memory.read_below (k + 1) a t hm.2 (by omega)

theorem Memory.read_put (lo a x : Nat) (b : Byte) :
    ∀ m : Memory, Memory.wfFrom lo m = true → (m.put a b).read x = if x = a then b else m.read x := by
  intro m
  induction m generalizing lo with
  | nil =>
    intro _
    simp only [Memory.put]
    split
    · rename_i hb
      simp [Memory.read, hb]
    · simp only [Memory.read]
      by_cases hx : x = a
      · simp [hx]
      · rw [if_neg (fun h => hx h.symm), if_neg hx]
  | cons c t ih =>
    obtain ⟨k, v⟩ := c
    intro hm
    have hw := hm
    simp only [Memory.wfFrom, Bool.and_eq_true, decide_eq_true_eq] at hm
    simp only [Memory.put]
    split
    · rename_i hak
      split
      · rename_i hb
        by_cases hx : x = a
        · subst hx
          have h0 := Memory.read_below (k + 1) x t hm.2 (by omega)
          simp only [Memory.read, if_true]
          rw [if_neg (by omega), h0, hb]
        · rw [if_neg hx]
      · simp only [Memory.read]
        by_cases hx : x = a
        · simp [hx]
        · rw [if_neg (fun h => hx h.symm), if_neg hx]
    · split
      · rename_i hak
        subst hak
        split
        · rename_i hb
          by_cases hx : x = a
          · subst hx
            rw [if_pos rfl, hb]
            exact Memory.read_below (x + 1) x t hm.2 (by omega)
          · rw [if_neg hx]
            simp only [Memory.read]
            rw [if_neg (fun h => hx h.symm)]
        · simp only [Memory.read]
          by_cases hx : x = a
          · simp [hx]
          · rw [if_neg (fun h => hx h.symm), if_neg hx, if_neg (fun h => hx h.symm)]
      · rename_i h1 h2
        simp only [Memory.read]
        rw [ih (k + 1) hm.2]
        by_cases hx : k = x
        · rw [if_pos hx, if_pos hx, if_neg (by omega)]
        · rw [if_neg hx, if_neg hx]

/-- What an image reads as after one byte is written. -/
theorem Memory.read_write (m : Memory) (a x : Nat) (b : Byte) (h : m.wf = true) (ha : a < imageSize) :
    (m.write a b).read x = if x = a then b else m.read x := by
  simp only [Memory.write, if_pos ha]
  exact Memory.read_put 0 a x b m h

/-- What an image reads as after a run of bytes is written: the run at its addresses, each other byte as before. -/
theorem Memory.read_writeAll (l : List Byte) : ∀ (m : Memory) (a x : Nat), m.wf = true → a + l.length ≤ imageSize →
    (Memory.writeAll m a l).read x = if a ≤ x ∧ x < a + l.length then byteAt l (x - a) else m.read x := by
  induction l with
  | nil =>
    intro m a x _ _
    simp only [Memory.writeAll, List.length_nil]
    rw [if_neg (by omega)]
  | cons b t ih =>
    intro m a x hm ha
    simp only [List.length_cons] at ha ⊢
    simp only [Memory.writeAll]
    rw [ih _ _ _ (Memory.wf_write m a b hm) (by omega), Memory.read_write m a x b hm (by omega)]
    by_cases h1 : a + 1 ≤ x ∧ x < a + 1 + t.length
    · rw [if_pos h1, if_pos (by omega)]
      obtain ⟨d, rfl⟩ : ∃ d, x = a + 1 + d := ⟨x - (a + 1), by omega⟩
      have e1 : a + 1 + d - (a + 1) = d := by omega
      have e2 : a + 1 + d - a = d + 1 := by omega
      rw [e1, e2]
      simp [byteAt]
    · rw [if_neg h1]
      by_cases hx : x = a
      · subst hx
        rw [if_pos rfl, if_pos (by omega)]
        simp [byteAt]
      · rw [if_neg hx, if_neg (by omega)]

/-! ## Roles -/

/-- Replacing the shadow image leaves the active one and every other part of the store. -/
theorem BankStore.setShadow_spec (b : BankStore) (m : Memory) :
    (b.setShadow m).shadowImage = m ∧ (b.setShadow m).activeImage = b.activeImage ∧ (b.setShadow m).active = b.active
      ∧ (b.setShadow m).cond = b.cond ∧ (b.setShadow m).shadow = b.shadow ∧ (b.setShadow m).commit = b.commit := by
  simp only [BankStore.setShadow, BankStore.shadowImage, BankStore.activeImage]
  cases b.active <;> simp

theorem BankStore.setShadow_wf (b : BankStore) (m : Memory) (ha : b.imgA.wf = true) (hb : b.imgB.wf = true)
    (hm : m.wf = true) : (b.setShadow m).imgA.wf = true ∧ (b.setShadow m).imgB.wf = true := by
  simp only [BankStore.setShadow]
  cases b.active <;> exact ⟨by assumption, by assumption⟩

/-- A swap exchanges the images' roles and copies no byte (R1). -/
theorem BankStore.swap_images (b : BankStore) :
    b.swap.activeImage = b.shadowImage ∧ b.swap.shadowImage = b.activeImage ∧ b.swap.imgA = b.imgA
      ∧ b.swap.imgB = b.imgB := by
  simp only [BankStore.swap, BankStore.shadowImage, BankStore.activeImage, BankName.other]
  cases b.active <;> simp

end Sys2Proof.Machine
end

