-- ==== Sys2Proof/WellFormed.lean ====
section
/-! DEFINITION. Which commands are well-formed: a request's fields fit its frame (spec/09 R146, R148), a frame's
symbols are of its row's kind (spec/07 R119, R125), and a row's codes are the row's own (spec/11.8). -/

namespace Sys2Proof

/-- A request whose frame is undamaged and within the sizes of R146 and R148, `extra` argument bytes standing
outside `r.args`. -/
def Request.wellFormed (r : Request) (extra : Nat) : Bool :=
  decide (r.args.length + extra ≤ 48) && decide (r.area.length ≤ 64)
    && decide (6 + r.args.length + extra + r.area.length + r.padding.length ≤ 1020) && decide (r.damage = [])

/-- Every FRAME_START of the symbols is followed by a kind byte that `ok` accepts, or ends the list. -/
def framesOfKind (ok : BitVec 8 → Bool) : List Symbol → Bool
  | [] => true
  | .frameStart :: t =>
    (match t with
      | .byte b :: _ => ok b
      | _ => true) && framesOfKind ok t
  | _ :: t => framesOfKind ok t

/-- The well-formed commands. -/
def Instr.wellFormed : Instr → Bool
  | .powerOn => true
  | .resetNAsserted => true
  | .resetNReleased => true
  | .invalidSymbol => true
  | .cycleFrame l => framesOfKind (fun b => decide (b = 0x01)) l
  | .rollcall l => framesOfKind (fun b => decide (b = 0x03)) l
  | .unknownKindFrame l => framesOfKind (fun b => decide (b ≠ 0x02)) l
  | .unknownRequest kind r => (decide (kind = 0) || decide (0x14 < kind.toNat)) && r.wellFormed 0
  | .identify r => r.wellFormed 0
  | .readEntry r => r.wellFormed 0
  | .writeEntryBank table r => (decide (table ≠ 4) && decide (table ≠ 5) && decide (table ≠ 6)) && r.wellFormed 1
  | .writeEntryTripInput r => r.wellFormed 1
  | .writeEntryGroup r => r.wellFormed 1
  | .writeEntryNode r => r.wellFormed 1
  | .copyActive r => r.wellFormed 0
  | .commit r => r.wellFormed 0
  | .arm r => r.wellFormed 0
  | .align r => r.wellFormed 0
  | .trim r => r.wellFormed 0
  | .stop r => r.wellFormed 0
  | .clear r => r.wellFormed 0
  | .restart r => r.wellFormed 0
  | .tripAck r => r.wellFormed 0
  | .faultRead r => r.wellFormed 0
  | .faultPop r => r.wellFormed 0
  | .countersRead r => r.wellFormed 0
  | .countersClear r => r.wellFormed 0
  | .loadBegin r => r.wellFormed 0
  | .loadData r => r.wellFormed 0
  | .loadEnd r => r.wellFormed 0
  | .loadCancel r => r.wellFormed 0
  | .periodBoundary => true
  | .drvOkFall => true
  | .plannedChange _ => true
  | .deadTimeEnd _ => true
  | .trip _ => true
  | .assertionEpisodeEnd _ => true
  | .restoreTimerExpiry _ => true
  | .gapTimerExpiry => true
  | .checkCompletion => true
  | .drvOkRise => true
  | .tripInputAssertion _ => true
  | .powerLoss => true

end Sys2Proof
end

