-- ==== Sys2Proof/Tests/Slice0.lean ====
section
/-! SUPPORT. Tests: the checks of WellFormed, the spec's worked examples, and single steps on small states. Expected
values stand in the spec's text or are computed from it by hand. -/

namespace Sys2Proof.Machine

-- One thread: each `decide +kernel` would else wait in a thread of its own for the ones before it.
set_option Elab.async false

/-! ## States and requests for the tests -/

/-- A bank with P = 1000, hold limit 2, loss timeout 3, every channel OFF. -/
def testImage : Memory := [(0, 0x03), (1, 0xE8), (2, 2), (3, 3)]

/-- A node at address 5 in a node state, period 10, tick 0, with `testImage` in both banks. -/
def nodeIn (st : NodeState) : State :=
  { State.reset with
    roll := { State.reset.roll with address := 5 }
    bank := { imgA := testImage, imgB := testImage, active := .a, cond := .valid, shadow := .editable, commit := none }
    timer :=
      { tick := 0, len := 1000, period := 10, trim := none, running := decide (st ≠ .config), wrapDue := false }
    node :=
      { state := st, cause := if st = .safe then .stop else .none, start := if st = .armed then some 12 else none
        loss := 0 } }

/-- An addressed request with sequence 1 and a reply area of 64 bytes. -/
def requestOf (args : List Byte) : Request :=
  { dest := 5, seq := 1, args := args, area := List.replicate 64 0, padding := [], damage := [] }

/-- The same request as a broadcast. -/
def broadcastOf (args : List Byte) : Request := { requestOf args with dest := 255 }

def readyNow (s : State) : Bool :=
  s.pins.supply && !s.relay.bypass && decide (s.relay.rx = .idle)
    && decide (s.relay.line.length = Config.forwardDelay)

theorem ready_of {s : State} (h : readyNow s = true) : s.Ready := by
  simp only [readyNow, Bool.and_eq_true, Bool.not_eq_true', decide_eq_true_eq] at h
  exact ⟨h.1.1.1, h.1.1.2, h.1.2, h.2⟩

def intactNow (r : Request) (args : List Byte) : Bool :=
  decide (r.damage = []) && decide (args.length ≤ 48) && decide (r.area.length ≤ 64)
    && decide (6 + args.length + r.area.length + r.padding.length ≤ 1020)

theorem intact_of {r : Request} {args : List Byte} (h : intactNow r args = true) : Intact r args := by
  simp only [intactNow, Bool.and_eq_true, decide_eq_true_eq] at h
  exact ⟨h.1.1.1, h.1.1.2, h.1.2, h.2⟩

def takesNow (s : State) (k : ReqKind) (args : List Byte) (r : Request) : Bool :=
  readyNow s && decide (s.node.state ≠ .unaddressed) && decide (r.dest = s.roll.address) && intactNow r args
    && decide (3 + largestData k args ≤ r.area.length) && argLengthOk k args && (s.mgmt.lookup r.seq k).isNone

theorem takes_of {s : State} {k : ReqKind} {args : List Byte} {r : Request} (h : takesNow s k args r = true) :
    s.Takes k args r := by
  simp only [takesNow, Bool.and_eq_true, decide_eq_true_eq, Option.isNone_iff_eq_none] at h
  obtain ⟨⟨⟨⟨⟨⟨h1, h2⟩, h3⟩, h4⟩, h5⟩, h6⟩, h7⟩ := h
  exact ⟨ready_of h1, h2, h3, intact_of h4, h5, h6, fun _ => h7⟩

/-- What a command leaves, State.reset where it answers no next state. -/
def after (i : Instr) (s : State) : State :=
  match exec i s with
  | .next t => t
  | .fault _ => State.reset
  | .refused _ => State.reset

/-! ## WellFormed: each check refuses an ill-formed command -/

theorem test_wf_good : (Instr.arm (requestOf [0, 0, 0, 0, 0, 1])).wellFormed = true := by decide +kernel
theorem test_wf_args : (Instr.identify (requestOf (List.replicate 49 0))).wellFormed = false := by decide +kernel
theorem test_wf_area : (Instr.commit { requestOf [] with area := List.replicate 65 0 }).wellFormed = false := by
  decide +kernel
theorem test_wf_body : (Instr.stop { requestOf [] with padding := List.replicate 951 0 }).wellFormed = false := by
  decide +kernel
theorem test_wf_damage : (Instr.clear { requestOf [] with damage := [(3, .idle)] }).wellFormed = false := by
  decide +kernel
theorem test_wf_table : (Instr.writeEntryBank 4 (requestOf [])).wellFormed = false := by decide +kernel
theorem test_wf_table_args : (Instr.writeEntryGroup (requestOf (List.replicate 48 0))).wellFormed = false := by
  decide +kernel
theorem test_wf_known_kind : (Instr.unknownRequest 0x14 (requestOf [])).wellFormed = false := by decide +kernel
theorem test_wf_cycle_kind : (Instr.cycleFrame [.frameStart, .byte 3]).wellFormed = false := by decide +kernel
theorem test_wf_rollcall_kind : (Instr.rollcall [.frameStart, .byte 1]).wellFormed = false := by decide +kernel
theorem test_wf_mgmt_kind : (Instr.unknownKindFrame [.idle, .frameStart, .byte 2]).wellFormed = false := by
  decide +kernel

/-! ## Worked examples of the spec -/

/-- The published check values of the CRC-16 with polynomial 1021H started at FFFFH and of the CRC-8 with polynomial 07H,
over the nine digits 1 to 9 (R121, R149). -/
theorem test_crc_check_values :
    crc16 [0x31, 0x32, 0x33, 0x34, 0x35, 0x36, 0x37, 0x38, 0x39] = 0x29B1
      ∧ crc8 [0x31, 0x32, 0x33, 0x34, 0x35, 0x36, 0x37, 0x38, 0x39] = 0xF4 := by decide +kernel

/-- 2.3, trimmed periods: P = 20000 with −2500 and +300, P = 500 and P = 600 with −62. -/
theorem test_trimmed_lengths :
    nextLen 20000 (some (-2500)) = 17500 ∧ nextLen 20000 (some 300) = 20300 ∧ nextLen 20000 none = 20000
      ∧ nextLen 500 (some (-62)) = 500 ∧ nextLen 600 (some (-62)) = 538 := by decide

/-- R65: minimum 19000, maximum 20000, on-time 100, in periods of 17500 and 20000 ticks. -/
theorem test_clamp_example :
    clamp 19000 20000 17500 100 = 17500 ∧ clampCount 19000 20000 17500 100 = 2
      ∧ clamp 19000 20000 20000 100 = 19000 ∧ clampCount 19000 20000 20000 100 = 1 := by decide

/-- R66: CENTERED, L = 10000, on = 3001. -/
theorem test_centered_example :
    drivenPlan .centered 10000 3001 0 = [⟨0, .lo⟩, ⟨3499, .hi⟩, ⟨6500, .lo⟩] := by decide +kernel

/-- R67: LEADING, L = 10000, on = 3000, phase 8500. -/
theorem test_shifted_example :
    drivenPlan .leading 10000 3000 8500 = [⟨0, .hi⟩, ⟨1500, .lo⟩, ⟨8500, .hi⟩] := by decide +kernel

/-- R69, one FIXED channel in three period lengths. -/
theorem test_fixed_example :
    let edges : List Interval := [⟨1000, .hi⟩, ⟨8000, .off⟩, ⟨11000, .lo⟩, ⟨19000, .off⟩]
    fixedPlan edges 20000 = [⟨0, .off⟩, ⟨1000, .hi⟩, ⟨8000, .off⟩, ⟨11000, .lo⟩, ⟨19000, .off⟩]
      ∧ fixedPlan edges 17500 = [⟨0, .lo⟩, ⟨1000, .hi⟩, ⟨8000, .off⟩, ⟨11000, .lo⟩]
      ∧ fixedPlan edges 22500 = fixedPlan edges 20000 := by decide +kernel

/-- Channel 3 as the example of 3.4 holds it in period 1200. -/
def exampleQueue : List Setpoint := [⟨3, 1201, 600, none⟩, ⟨3, 1202, 600, none⟩, ⟨3, 1203, 600, none⟩, ⟨3, 1204, 600, none⟩]

/-- 3.4, classification of arrivals for one channel: target 1203 in period 1200, 1205 in 1200, 1205 in 1201 after the head is
gone, 1202 and 1230 in 1202. -/
theorem test_classification_example :
    classify 1200 exampleQueue ⟨3, 1203, 700, none⟩ = .replaced
      ∧ classify 1200 exampleQueue ⟨3, 1205, 650, none⟩ = .overrun
      ∧ Fate.inserted.apply 1201 ⟨3, 1205, 650, none⟩ exampleQueue.tail = exampleQueue.tail ++ [⟨3, 1205, 650, none⟩]
      ∧ classify 1201 exampleQueue.tail ⟨3, 1205, 650, none⟩ = .inserted
      ∧ classify 1202 exampleQueue.tail ⟨3, 1202, 620, none⟩ = .late
      ∧ classify 1202 exampleQueue.tail ⟨3, 1230, 640, none⟩ = .far := by decide +kernel

/-- TRIP1 of the example of 5.3 at tick 1030: filter 3, blanking 50, asserted, 20 blanked ticks left. -/
def exampleInput : TripInput :=
  { entry := { polarity := .activeHigh, group := some 0, filter := 3, blanking := 50, action := .cycle, delay := 1 }
    pin := true, count := 0, blank := 20, blanked := true, episode := false }

/-- 5.3, filter, blanking and two episodes: the count at the start of ticks 1050 and 1053, and the trip due at 1053. -/
theorem test_filter_example :
    exampleInput.toTrip = 23 ∧ (exampleInput.elapse 20 .run).count = 0 ∧ (exampleInput.elapse 20 .run).blanked = false
      ∧ (exampleInput.elapse 23 .run).count = 3 := by decide

/-- 5.5, a group escalated and acknowledged: E = 3, the third change out of ENABLED, by a CYCLE trip, escalates. -/
theorem test_escalation_example :
    let g (esc : Nat) : ProtGroup := { entry := ⟨3, 10⟩, state := .enabled, timer := 0, esc := esc, window := 2 }
    escalates (g 1) ((g 1).trip .timed 5000) = false ∧ ((g 1).trip .timed 5000).timer = 5000
      ∧ escalates (g 2) ((g 2).trip .cycle 0) = true ∧ ((g 2).trip .cycle 0).esc = 3 := by decide

/-- 6.3, a full log and a drop: with 47 next and 7 held, TRIP_TIMED is stored as 47 and ESCALATED dropped. -/
theorem test_log_example :
    let r (n : Word) : FaultRecord := ⟨n, .tripTimed, .run, 900, 4120, some 1, some 0, none⟩
    let l : FaultLog := ⟨[r 40, r 41, r 42, r 43, r 44, r 45, r 46], 47, 0⟩
    ((l.append (r 0)).append (r 0)).records.length = 8 ∧ ((l.append (r 0)).append (r 0)).next = 48
      ∧ ((l.append (r 0)).append (r 0)).dropped = 1 ∧ (l.append (r 0)).records.getLast? = some (r 47) := by
  decide +kernel

/-- The faulty image of the example of 1.6, as far as its first three failures need it. -/
def faultyImage (maximum : Word) (id3 : Byte) : Memory :=
  [(0, 0x4E), (1, 0x20), (3, 3), (64, 3), (69, 100)].foldl (fun m x => Memory.write m x.1 x.2)
    (Memory.writeAll
      (Memory.writeAll (Memory.writeAll [] 70 (wordBytes maximum)) 112 [1])
      164 ([40, 1, 0, 0x02] ++ [50, 2, 1, 0] ++ [id3, 1, 0, 0x22]))

/-- 1.6, the order of first failures. -/
theorem test_validation_example :
    validate (faultyImage 25000 40) = some (.onTimeLimits, 2)
      ∧ validate (faultyImage 18000 40) = some (.slotDuplicate, 3)
      ∧ validate (faultyImage 18000 41) = some (.unboundChannel, 4) := by decide +kernel

/-! ## One step on a small state -/

/-- R129, R130: a good ROLLCALL addresses an UNADDRESSED node, whose successor is handed the next address. -/
theorem test_rollcall :
    (after (.rollcall (frameSymbols kindRollcall [5, 0, 0])) State.reset).node.state = .config
      ∧ (after (.rollcall (frameSymbols kindRollcall [5, 0, 0])) State.reset).roll.address = 5 := by decide +kernel

/-- R161: the reply of IDENTIFY starts with status DONE, no replay, 15 bytes, model 6610. -/
theorem test_identify_reply :
    let t := after (.identify (requestOf [])) (nodeIn .run)
    ((t.relay.sent ++ t.relay.line).drop 30).take 5
      = [.byte 0x00, .byte 0x00, .byte 0x0F, .byte 0x66, .byte 0x10] := by decide +kernel

/-- R27, R28: ARM(10, 999, 265) with P = 1000. -/
theorem test_arm :
    let t := after (.arm (requestOf (wordBytes 10 ++ wordBytes 999 ++ wordBytes 265))) (nodeIn .config)
    t.node.state = .armed ∧ t.timer.tick = 999 ∧ t.node.start = some 265 := by decide +kernel

/-- R27: t0 = P is INVALID and leaves the node in CONFIG. -/
theorem test_arm_late_tick :
    let t := after (.arm (requestOf (wordBytes 10 ++ wordBytes 1000 ++ wordBytes 265))) (nodeIn .config)
    t.node.state = .config ∧ t.mgmt.cache = [⟨1, .arm, .invalid, []⟩] := by decide +kernel

/-- R32, R33: STOP in RUN. -/
theorem test_stop :
    let t := after (.stop (requestOf [])) (nodeIn .run)
    t.node.state = .safe ∧ t.node.cause = .stop ∧ t.log.records = [] := by decide +kernel

/-- R159: a broadcast STOP counts in the done tally. -/
theorem test_stop_broadcast :
    let t := after (.stop (broadcastOf [])) (nodeIn .run)
    ((t.relay.sent ++ t.relay.line).drop 30).take 3 = [.byte 1, .byte 0, .byte 0] := by decide +kernel

/-- R25, R174: TRIM(−125) is the limit of P = 1000; TRIM(−126) is INVALID. -/
theorem test_trim :
    (after (.trim (requestOf (wordBytes 0xFF83))) (nodeIn .run)).timer.trim = some (-125)
      ∧ (after (.trim (requestOf (wordBytes 0xFF82))) (nodeIn .run)).timer.trim = none := by decide +kernel

/-- R45, R49: a cycle frame for the next period but one queues the record of its one slot. -/
theorem test_cycle_frame :
    let m : Memory := Memory.writeAll (Memory.writeAll testImage 16 [1]) 160 [10, 1, 0, 0x01]
    let s := { nodeIn .run with bank := { (nodeIn .run).bank with imgA := m } }
    let t := after (.cycleFrame (frameSymbols kindCycle (cycleBody 12 [10, 2, 0x01, 0x2C] 1 []))) s
    (t.queue.get 0).records = [⟨0, 12, 300, none⟩] ∧ t.counters.framesGood = 1 := by decide +kernel

/-- R23, R30, R35: the boundary into the start period. -/
theorem test_boundary_into_start :
    let s := { nodeIn .armed with timer := { (nodeIn .armed).timer with period := 11 } }
    (after .periodBoundary s).node.state = .run ∧ (after .periodBoundary s).timer.period = 12
      ∧ (after .periodBoundary s).node.loss = 1 := by decide +kernel

/-- R35: the third boundary without a good cycle frame with a loss timeout of 3. -/
theorem test_loss_timeout :
    let s := { nodeIn .run with node := { (nodeIn .run).node with loss := 2 } }
    (after .periodBoundary s).node.cause = .linkLoss
      ∧ (after .periodBoundary s).log.records = [⟨0, .linkLoss, .run, 11, 0, none, none, none⟩] := by decide +kernel

/-- A channel in its HI interval with its next change at tick 300, in a bank with dead time 20. -/
def drivenNode : State :=
  { nodeIn .run with
    bank := { (nodeIn .run).bank with imgA := Memory.write (Memory.write testImage 16 1) 19 20 }
    timer := { (nodeIn .run).timer with tick := 100 }
    gen := (nodeIn .run).gen.modify 0 fun g => { g with plan := [⟨0, .hi⟩, ⟨300, .lo⟩], output := .hi } }

/-- R70: the planned change from HI to LO, and the end of its dead time. -/
theorem test_planned_change :
    let t := after (.plannedChange 0) drivenNode
    t.timer.tick = 300 ∧ (t.gen.get 0).output = .off ∧ (t.gen.get 0).dead = some 20
      ∧ ((after (.deadTimeEnd 0) t).gen.get 0).output = .lo ∧ (after (.deadTimeEnd 0) t).timer.tick = 320 := by
  decide +kernel

/-- An asserted TIMED input of group 0 with filter 3 and restore delay 500 over `drivenNode`. -/
def trippingNode : State :=
  { drivenNode with
    prot := { drivenNode.prot with
      inputs := drivenNode.prot.inputs.modify 2 fun x =>
        { x with entry := ⟨.activeHigh, some 0, 3, 0, .timed, 500⟩ } } }

/-- R87, R91, R75: the trip of a TIMED input. -/
theorem test_trip :
    let t := after (.trip 2) trippingNode
    t.timer.tick = 103 ∧ (t.gen.get 0).output = .off ∧ t.prot.groups.g0.state = .timedOff
      ∧ t.prot.groups.g0.timer = 500
      ∧ t.log.records = [⟨0, .tripTimed, .run, 10, 103, some 0, some 2, none⟩] := by decide +kernel

/-- R95, R76: released meanwhile, the group is ENABLED and its channel waits for its next planned change. -/
theorem test_restore :
    let t := after (.restoreTimerExpiry 0) (after (.assertionEpisodeEnd 2) (after (.trip 2) trippingNode))
    t.prot.groups.g0.state = .enabled ∧ (t.gen.get 0).flag = some 603 := by decide +kernel

/-- R96, expiry and TIMED trip of one tick with the trip taken first: the timer is reloaded and there is no expiry in that
tick. -/
theorem test_trip_before_expiry :
    let s :=
      { trippingNode with
        prot :=
          { inputs := trippingNode.prot.inputs.modify 2 fun x => { x with count := 3 }
            groups := trippingNode.prot.groups.modify 0 fun g => { g with state := .timedOff } } }
    s.dueEvents = [.trip 2, .restoreTimerExpiry 0] ∧ (after (.trip 2) s).prot.groups.g0.timer = 500
      ∧ (after (.trip 2) s).dueEvents = [] := by decide +kernel

/-- R36: a fall of DRV_OK in RUN. -/
theorem test_supply_loss :
    (after .drvOkFall (nodeIn .run)).node.cause = .supplyLoss ∧ (after .drvOkFall (nodeIn .config)).node.state = .config := by
  decide +kernel

/-- R116: an invalid symbol between frames. -/
theorem test_invalid_symbol : (after .invalidSymbol (nodeIn .run)).counters.symbolErrors = 1 := by decide +kernel

end Sys2Proof.Machine
end

