-- ==== Sys2Proof/Tests/Witnesses.lean ====
section
/-! SUPPORT. For each statement of the obligations that has hypotheses, states and operands that meet all of them
together, clause by clause at the ends of its ranges. A theorem `witness_<Name>` belongs to `Obligations.<Name>`. -/

namespace Sys2Proof.Machine

-- One thread: each `decide +kernel` would else wait in a thread of its own for the ones before it.
set_option Elab.async false

/-! ## Power, link, roll call -/

theorem witness_PowerAndResetGivePowerOnValues :
    ({ State.reset with pins := { State.reset.pins with resetN := false } } : State).pins.resetN = false := rfl

/-- A node that is within a frame, at the last position and of no parser. -/
def inFrameAt (p : Nat) (q : Parser) : State :=
  { nodeIn .run with
    relay := { (nodeIn .run).relay with rx := .inFrame, frame := { FrameCheck.clear with pos := p, parser := q } } }

theorem witness_InvalidSymbolCountedAndForwarded :
    ((nodeIn .run).pins.supply = true ∧ (nodeIn .run).relay.bypass = false ∧ (nodeIn .run).relay.rx = .idle)
      ∧ ((inFrameAt 1026 .none).pins.supply = true ∧ (inFrameAt 1026 .none).relay.bypass = false
          ∧ (inFrameAt 1026 .none).relay.rx = .inFrame ∧ (inFrameAt 1026 .none).relay.frame.pos ≠ 0
          ∧ (inFrameAt 1026 .none).relay.frame.parser = .none) := by decide +kernel

theorem ready_nodeIn (st : NodeState) : (nodeIn st).Ready := ready_of (by cases st <;> decide +kernel)

/-- A request to address 6. -/
def elsewhere : Request := { requestOf [] with dest := 6 }

theorem witness_UntouchedFramesPassUnchanged :
    ((nodeIn .run).Ready ∧ (List.replicate 1020 (0 : Byte)).length ≤ 1020 ∧ (0x04 : Byte) ≠ 0x03
        ∧ 3 ≤ ([0, 0, 0] : List Byte).length ∧ (nodeIn .config).node.state = .config
        ∧ (nodeIn .safe).node.state = .safe)
      ∧ (State.reset.Ready ∧ State.reset.node.state = .unaddressed
          ∧ carried (.commit (requestOf [])) = some (0x05, [], requestOf []) ∧ (requestOf []).damage = []
          ∧ (requestBody (requestOf []) 0x05 []).length ≤ 1020)
      ∧ ((nodeIn .config).Ready ∧ (nodeIn .config).node.state ≠ .unaddressed
          ∧ carried (.restart elsewhere) = some (0x0B, elsewhere.args, elsewhere) ∧ Intact elsewhere elsewhere.args
          ∧ elsewhere.dest ≠ (nodeIn .config).roll.address ∧ elsewhere.dest ≠ 255) :=
  ⟨⟨ready_nodeIn _, by decide +kernel, by decide, by decide, rfl, rfl⟩,
    ⟨ready_of (by decide +kernel), rfl, rfl, rfl, by decide +kernel⟩,
    ⟨ready_nodeIn _, by decide, rfl, intact_of (by decide +kernel), by decide, by decide⟩⟩

theorem witness_BadFrameIsPoisoned :
    (nodeIn .run).Ready ∧ (List.replicate 1023 (0x09 : Byte)).length + 2 ≤ 1025
      ∧ (List.replicate 1023 (0x09 : Byte) ++ [0, 0]).head? ≠ some 0x01
      ∧ (List.replicate 1023 (0x09 : Byte) ++ [0, 0]).head? ≠ some 0x02
      ∧ (List.replicate 1023 (0x09 : Byte) ++ [0, 0]).head? ≠ some 0x03
      ∧ ¬ (3 ≤ (List.replicate 1023 (0x09 : Byte)).length
            ∧ (List.replicate 1023 (0x09 : Byte)).length = 3 + (wordAt (List.replicate 1023 (0x09 : Byte)) 1).toNat
            ∧ wordOf 0 0 = crc16 (List.replicate 1023 (0x09 : Byte))) :=
  ⟨ready_nodeIn _, by decide +kernel, by decide +kernel, by decide +kernel, by decide +kernel, by decide +kernel⟩

theorem witness_CutFrameDiscardsStagedValues :
    ∀ q ∈ [Parser.none, .slot, .mgmt, .roll],
      (inFrameAt 4 q).pins.supply = true ∧ (inFrameAt 4 q).relay.bypass = false
        ∧ (inFrameAt 4 q).relay.rx = .inFrame ∧ (inFrameAt 4 q).relay.frame.parser = q := by decide +kernel

theorem witness_BypassCopiesEverySymbol :
    (after .resetNAsserted (nodeIn .run)).pins.supply = true ∧ (after .resetNAsserted (nodeIn .run)).relay.bypass = true
      ∧ carried (.clear (requestOf [])) = some (0x0A, [], requestOf []) := by
  decide +kernel

theorem witness_RollcallAddressesTheNode :
    (nodeIn .config).Ready ∧ (nodeIn .config).node.state = .config ∧ State.reset.Ready
      ∧ State.reset.node.state = .unaddressed ∧ (1 : Byte) ≠ 0 ∧ (254 : Byte) ≠ 255 ∧ (32 : Byte).toNat ≤ 32
      ∧ (List.replicate 256 (0 : Byte)).length = 8 * (32 : Byte).toNat
      ∧ 3 + (List.replicate 256 (0 : Byte)).length + (List.replicate 761 (0 : Byte)).length ≤ 1020 :=
  ⟨ready_nodeIn _, rfl, ready_of (by decide +kernel), rfl, by decide, by decide, by decide, by decide +kernel,
    by decide +kernel⟩

/-- The rests reach from an empty entry area over capacities of 33 and 255, entries past the body, to the longest body
(log 29). -/
theorem witness_RollcallWithoutAdoption :
    (nodeIn .config).Ready ∧ (nodeIn .config).node.state = .config
      ∧ (∀ rest ∈ ([[0, 0], [0, 1], [0, 33], [0, 255], [0, 33] ++ List.replicate 264 0, List.replicate 1019 0]
            : List (List Byte)), 2 ≤ rest.length ∧ 1 + rest.length ≤ 1020)
      ∧ (33 : Byte).toNat > 32 ∧ 3 ≤ ([5, 0, 0] : List Byte).length
      ∧ wordOf 0 0 ≠ crc16 (frameBytes kindRollcall [5, 0, 0]) :=
  ⟨ready_nodeIn _, rfl, by decide +kernel, by decide, by decide, by decide +kernel⟩

/-! ## Cycle frames -/

theorem counters_nodeIn (st : NodeState) (id : CounterId) : (nodeIn st).counters.get id ≤ 65535 := by
  rw [show (nodeIn st).counters = State.reset.counters from rfl]
  cases id <;> decide +kernel

theorem witness_CycleFrameIsItsSlots :
    ((nodeIn .armed).Ready ∧ (nodeIn .armed).node.state = .armed ∧ (nodeIn .run).node.state = .run
        ∧ (nodeIn .safe).node.state = .safe ∧ (nodeIn .armed).slots.staging = []
        ∧ (∀ id, (nodeIn .armed).counters.get id ≤ 65535)
        ∧ ([⟨1, List.replicate 64 0⟩, ⟨0, []⟩] : List Slot).length ≤ 255
        ∧ (∀ x ∈ ([⟨1, List.replicate 64 0⟩, ⟨0, []⟩] : List Slot), x.data.length ≤ 64)
        ∧ (cycleBody 12 (([⟨1, List.replicate 64 0⟩, ⟨0, []⟩] : List Slot).flatMap Slot.bytes) 2
            (List.replicate 949 0)).length = 1020)
      ∧ (wordOf 0 0 ≠ crc16 (frameBytes kindCycle (cycleBody 12 (([⟨0, []⟩] : List Slot).flatMap Slot.bytes) 1 []))
        ∧ (nodeIn .run).bank.cond = .valid ∧ (∀ k, k < 16 → (nodeIn .run).bank.activeImage.read (160 + 4 * k) ≠ 1)
        ∧ (let m := Memory.write (Memory.write testImage 220 9) 216 9
           m.read (160 + 4 * 14) = 9 ∧ ∀ j, j < 14 → m.read (160 + 4 * j) ≠ 9)
        ∧ 5 + 1 ≤ 6 ∧ ([1, 2] : List Byte).length = 2 * 1 ∧ ([1, 2, 3, 4] : List Byte).length = 2 * 1 + 2) :=
  ⟨⟨ready_nodeIn _, rfl, rfl, rfl, rfl, counters_nodeIn _, by decide, by decide +kernel, by decide +kernel⟩,
    by decide +kernel, rfl, by decide +kernel, by decide +kernel, by decide, rfl, rfl⟩

/-- Channel 0's queue holds targets 11 to 14 in period 10. -/
def fullQueue : State :=
  { nodeIn .run with
    queue := (nodeIn .run).queue.modify 0 fun q =>
      { q with records := [⟨0, 11, 1, none⟩, ⟨0, 12, 1, none⟩, ⟨0, 13, 1, none⟩, ⟨0, 14, 1, none⟩] } }

theorem witness_ArrivalIsClassified :
    (nodeIn .safe).node.state ≠ .armed ∧ (nodeIn .safe).node.state ≠ .run ∧ fullQueue.node.state = .run
      ∧ distance fullQueue.timer.period 10 = 0 ∧ distance fullQueue.timer.period 32778 = 32768
      ∧ distance fullQueue.timer.period 26 = 16 ∧ distance fullQueue.timer.period 32777 = 32767
      ∧ (distance fullQueue.timer.period 11 = 1 ∧ ∃ x ∈ (fullQueue.queue.get 0).records, x.target = 11)
      ∧ (distance fullQueue.timer.period 25 = 15 ∧ (∀ x ∈ (fullQueue.queue.get 0).records, x.target ≠ 25)
          ∧ 4 ≤ (fullQueue.queue.get 0).records.length)
      ∧ ((∀ x ∈ (fullQueue.queue.get 1).records, x.target ≠ 25) ∧ (fullQueue.queue.get 1).records.length < 4) := by
  decide +kernel

/-! ## Requests that read -/

theorem witness_IdentifyReplies : (nodeIn .config).Takes .identify (requestOf []).args (requestOf []) :=
  takes_of (by decide +kernel)

theorem witness_ReadEntryReplies :
    ∀ a ∈ ([[1, 0, 1], [1, 0, 2], [2, 5, 2], [3, 15, 1], [4, 3, 0], [5, 1, 0], [6, 0, 0], [0, 0, 0], [7, 0, 0], [1, 1, 1],
        [2, 6, 1], [3, 16, 1], [4, 4, 0], [5, 2, 0], [6, 1, 0], [1, 0, 3]] : List (List Byte)),
      (nodeIn .config).Takes .readEntry (requestOf a).args (requestOf a) := by
  intro a ha
  apply takes_of
  revert a
  decide +kernel

/-- A node with one fault record, number 0. -/
def oneFault : State := (nodeIn .run).record .linkLoss none none none

theorem witness_RecordReadsReply :
    (nodeIn .run).Takes .faultRead (requestOf []).args (requestOf []) ∧ (nodeIn .run).log.records = []
      ∧ oneFault.Takes .faultRead (requestOf []).args (requestOf [])
      ∧ oneFault.log.records = [⟨0, .linkLoss, .run, 10, 0, none, none, none⟩]
      ∧ (nodeIn .run).Takes .countersRead (requestOf []).args (requestOf []) :=
  ⟨takes_of (by decide +kernel), rfl, takes_of (by decide +kernel), by decide +kernel, takes_of (by decide +kernel)⟩

/-! ## Requests that write -/

/-- `nodeIn .config` with its shadow in a state. -/
def shadowIn (st : NodeState) (x : ShadowState) : State :=
  { nodeIn st with bank := { (nodeIn st).bank with shadow := x } }

theorem witness_WriteEntryBankStores :
    Table.ofCode 3 = some .slot ∧ Table.slot.isBank = true ∧ (15 : Byte).toNat < Table.slot.entries
      ∧ ([9, 1, 0, 1] : List Byte).length = Table.slot.size
      ∧ (nodeIn .run).Takes .writeEntry (3 :: (requestOf [15, 2, 9, 1, 0, 1]).args) (requestOf [15, 2, 9, 1, 0, 1])
      ∧ (nodeIn .run).bank.shadowImage.wf = true ∧ (nodeIn .run).bank.shadow = .editable
      ∧ (shadowIn .run .broken).Takes .writeEntry (3 :: (requestOf [15, 2, 9, 1, 0, 1]).args)
          (requestOf [15, 2, 9, 1, 0, 1]) :=
  ⟨by decide, by decide, by decide, by decide, takes_of (by decide +kernel), by decide +kernel, rfl,
    takes_of (by decide +kernel)⟩

/-- The last values of R82: group NONE, blanking 1023, delay 65535. -/
def lastTripEntry : TripEntry := ⟨.activeHigh, none, 255, 1023, .latch, 65535⟩

theorem witness_WriteEntryStoresNodeTables :
    (nodeIn .config).Takes .writeEntry (4 :: (requestOf ([3, 0] ++ lastTripEntry.encode)).args)
        (requestOf ([3, 0] ++ lastTripEntry.encode))
      ∧ lastTripEntry.blanking.toNat ≤ 1023 ∧ lastTripEntry.delay ≠ 0 ∧ (nodeIn .config).node.state = .config
      ∧ (nodeIn .config).Takes .writeEntry (5 :: (requestOf [1, 0, 255, 1]).args) (requestOf [1, 0, 255, 1])
      ∧ (1 : Byte) ≠ 0
      ∧ (nodeIn .config).Takes .writeEntry (6 :: (requestOf ([0, 0] ++ wordBytes 1023)).args)
          (requestOf ([0, 0] ++ wordBytes 1023))
      ∧ (1023 : Word).toNat ≤ 1023 :=
  ⟨takes_of (by decide +kernel), by decide, by decide, rfl, takes_of (by decide +kernel), by decide,
    takes_of (by decide +kernel), by decide⟩

theorem witness_RefusedWritesChangeNothing :
    (∀ a ∈ ([[16, 2, 0, 0, 0, 0], [15, 1, 0, 0, 0, 0], [15, 3, 0, 0, 0, 0], [15, 2, 0, 0, 0, 0]] : List (List Byte)),
      ∀ x ∈ [ShadowState.editable, .loading, .checking, .frozen],
        (shadowIn .run x).Takes .writeEntry (3 :: (requestOf a).args) (requestOf a))
    ∧ (∀ st ∈ [NodeState.config, .run],
        ∀ e ∈ ([[2, 0, 0, 0, 0, 1, 0, 1], [0, 2, 0, 0, 0, 1, 0, 1], [0, 0, 0, 4, 0, 1, 0, 1], [0, 0, 0, 0, 0, 0, 0, 1],
            [0, 0, 0, 0, 0, 4, 0, 1], [0, 0, 0, 0, 0, 1, 0, 0]] : List (List Byte)), ∀ i ∈ ([3, 4] : List Byte),
          (nodeIn st).Takes .writeEntry (4 :: (requestOf ([i, 0] ++ e)).args) (requestOf ([i, 0] ++ e)))
    ∧ (∀ st ∈ [NodeState.config, .run], ∀ a ∈ ([[1, 0, 0, 0], [2, 0, 0, 1]] : List (List Byte)),
        (nodeIn st).Takes .writeEntry (5 :: (requestOf a).args) (requestOf a))
    ∧ (∀ st ∈ [NodeState.config, .run], ∀ a ∈ ([[0, 0, 4, 0], [1, 0, 0, 1]] : List (List Byte)),
        (nodeIn st).Takes .writeEntry (6 :: (requestOf a).args) (requestOf a)) := by
  refine ⟨fun a ha x hx => takes_of ?_, fun st hs e he i hi => takes_of ?_, fun st hs a ha => takes_of ?_,
    fun st hs a ha => takes_of ?_⟩
  · revert a x; decide +kernel
  · revert st e i; decide +kernel
  · revert st a; decide +kernel
  · revert st a; decide +kernel

theorem witness_CopyActiveCopiesTheImage :
    ∀ x ∈ [ShadowState.editable, .broken, .loading, .checking, .frozen],
      (shadowIn .run x).Takes .copyActive (requestOf []).args (requestOf []) := by
  intro x hx
  apply takes_of
  revert x
  decide +kernel

theorem witness_CommitAccepted :
    ((nodeIn .config).Takes .commit (requestOf []).args (requestOf []) ∧ (nodeIn .config).bank.shadow = .editable
        ∧ validate (nodeIn .config).bank.shadowImage = none)
      ∧ ((nodeIn .run).Takes .commit (requestOf []).args (requestOf []) ∧ (nodeIn .run).bank.commit = none)
      ∧ (nodeIn .armed).Takes .commit (requestOf (wordBytes 11)).args (requestOf (wordBytes 11))
      ∧ distance (nodeIn .armed).timer.period 11 = 1
      ∧ (nodeIn .armed).Takes .commit (requestOf (wordBytes 265)).args (requestOf (wordBytes 265))
      ∧ distance (nodeIn .armed).timer.period 265 = 255 ∧ validate (nodeIn .armed).bank.shadowImage = none :=
  ⟨⟨takes_of (by decide +kernel), rfl, by decide +kernel⟩, ⟨takes_of (by decide +kernel), rfl⟩,
    takes_of (by decide +kernel), by decide +kernel, takes_of (by decide +kernel), by decide +kernel,
    by decide +kernel⟩

/-- A node with an all-zero shadow image, which fails at its period length. -/
def zeroShadow (st : NodeState) : State := { nodeIn st with bank := { (nodeIn st).bank with imgB := [] } }

/-- A node with a commit that waits for period 12. -/
def committing (st : NodeState) : State :=
  { nodeIn st with bank := { (nodeIn st).bank with shadow := .frozen, commit := some ⟨12, 9⟩ } }

theorem witness_CommitRefusals :
    (nodeIn .safe).Takes .commit (requestOf []).args (requestOf [])
      ∧ (∀ st ∈ [NodeState.config, .armed, .run], ∀ x ∈ [ShadowState.broken, .loading, .checking],
          (shadowIn st x).Takes .commit (requestOf []).args (requestOf []) ∧ (shadowIn st x).bank.commit = none)
      ∧ (∀ st ∈ [NodeState.config, .run],
          (zeroShadow st).Takes .commit (requestOf []).args (requestOf [])
            ∧ validate (zeroShadow st).bank.shadowImage = some (.periodRange, 0))
      ∧ ((committing .run).Takes .commit (requestOf []).args (requestOf []) ∧ (committing .run).bank.commit ≠ none)
      ∧ (nodeIn .run).Takes .commit (requestOf (wordBytes 10)).args (requestOf (wordBytes 10))
      ∧ distance (nodeIn .run).timer.period 10 = 0
      ∧ (nodeIn .run).Takes .commit (requestOf (wordBytes 266)).args (requestOf (wordBytes 266))
      ∧ distance (nodeIn .run).timer.period 266 = 256 := by
  refine ⟨takes_of (by decide +kernel), fun st hs x hx => ⟨takes_of ?_, rfl⟩, fun st hs => ⟨takes_of ?_, ?_⟩,
    ⟨takes_of (by decide +kernel), by decide⟩, takes_of (by decide +kernel), by decide +kernel,
    takes_of (by decide +kernel), by decide +kernel⟩
  · revert st x; decide +kernel
  · revert st; decide +kernel
  · revert st; decide +kernel

/-! ## Requests to the node -/

/-- ARM(10, t0, start). -/
def armOf (t0 start : Word) : Request := requestOf (wordBytes 10 ++ wordBytes t0 ++ wordBytes start)

theorem witness_ArmStartsTheNode :
    (∀ x ∈ ([(999, 11), (999, 265), (999, 10), (999, 266), (1000, 265)] : List (Word × Word)),
      (nodeIn .config).Takes .arm (armOf x.1 x.2).args (armOf x.1 x.2))
    ∧ distance 10 11 = 1 ∧ distance 10 265 = 255 ∧ distance 10 10 = 0 ∧ distance 10 266 = 256
    ∧ imageP (nodeIn .config).bank.activeImage = 1000 ∧ (nodeIn .config).mgmt.comp = 0
    ∧ (nodeIn .config).bank.cond = .valid ∧ (nodeIn .config).pins.drvOk = true
    ∧ (nodeIn .run).Takes .arm (armOf 0 11).args (armOf 0 11)
    ∧ ({ nodeIn .config with bank := State.reset.bank } : State).Takes .arm (armOf 0 11).args (armOf 0 11)
    ∧ ({ nodeIn .config with pins := ⟨true, true, false⟩ } : State).Takes .arm (armOf 0 11).args (armOf 0 11) := by
  refine ⟨fun x hx => takes_of ?_, by decide, by decide, by decide, by decide, by decide +kernel, rfl, rfl, rfl,
    takes_of (by decide +kernel), takes_of (by decide +kernel), takes_of (by decide +kernel)⟩
  simp only [List.mem_cons, List.not_mem_nil, or_false] at hx
  rcases hx with rfl | rfl | rfl | rfl | rfl <;> decide +kernel

/-- ALIGN(n, t). -/
def alignOf (n t : Word) : Request := requestOf (wordBytes n ++ wordBytes t)

theorem witness_AlignSetsTheTimer :
    (∀ x ∈ ([(11, 999), (65293, 999), (12, 999), (65292, 999), (11, 1000)] : List (Word × Word)),
      (nodeIn .armed).Takes .align (alignOf x.1 x.2).args (alignOf x.1 x.2))
    ∧ (nodeIn .armed).node.start = some 12 ∧ distance 11 12 = 1 ∧ distance 65293 12 = 255 ∧ distance 12 12 = 0
    ∧ distance 65292 12 = 256 ∧ (nodeIn .armed).bank.commit = none ∧ imageP (nodeIn .armed).bank.activeImage = 1000
    ∧ (nodeIn .run).Takes .align (alignOf 11 0).args (alignOf 11 0)
    ∧ (committing .armed).Takes .align (alignOf 11 0).args (alignOf 11 0) := by
  refine ⟨fun x hx => takes_of ?_, rfl, by decide, by decide, by decide, by decide, rfl, by decide +kernel,
    takes_of (by decide +kernel), takes_of (by decide +kernel)⟩
  simp only [List.mem_cons, List.not_mem_nil, or_false] at hx
  rcases hx with rfl | rfl | rfl | rfl | rfl <;> decide +kernel

theorem witness_TrimIsPending :
    (∀ st ∈ [NodeState.armed, .run, .config],
      ∀ d ∈ ([125, 126, 0xFF83, 0xFF82] : List Word),
        (nodeIn st).Takes .trim (requestOf (wordBytes d)).args (requestOf (wordBytes d)))
    ∧ imageP (nodeIn .run).bank.activeImage / 8 = 125 ∧ (125 : Word).toInt.natAbs = 125
    ∧ (126 : Word).toInt.natAbs = 126 ∧ (0xFF83 : Word).toInt = -125 ∧ (0xFF82 : Word).toInt = -126 := by
  refine ⟨fun st hs d hd => takes_of ?_, by decide +kernel, by decide, by decide, by decide, by decide⟩
  simp only [List.mem_cons, List.not_mem_nil, or_false] at hs hd
  rcases hs with rfl | rfl | rfl <;> rcases hd with rfl | rfl | rfl | rfl <;> decide +kernel

theorem broadcast_of {s : State} {k : ReqKind} {args : List Byte} {r : Request}
    (h : (readyNow s && decide (s.node.state ≠ .unaddressed) && decide (r.dest = 255) && decide (s.roll.address ≠ 255)
      && intactNow r args && decide (3 ≤ r.area.length) && argLengthOk k args
      && (s.mgmt.lookup r.seq k).isNone) = true) : s.TakesBroadcast k args r := by
  simp only [Bool.and_eq_true, decide_eq_true_eq, Option.isNone_iff_eq_none] at h
  obtain ⟨⟨⟨⟨⟨⟨⟨h1, h2⟩, h3⟩, h4⟩, h5⟩, h6⟩, h7⟩, h8⟩ := h
  exact ⟨ready_of h1, h2, h3, h4, intact_of h5, h6, h7, fun _ => h8⟩

theorem witness_StopEntersSafe :
    ∀ st ∈ [NodeState.config, .armed, .run, .safe],
      (nodeIn st).Takes .stop (requestOf []).args (requestOf [])
        ∧ (nodeIn st).TakesBroadcast .stop (broadcastOf []).args (broadcastOf []) := by
  intro st hs
  refine ⟨takes_of ?_, broadcast_of ?_⟩
  · revert st; decide +kernel
  · revert st; decide +kernel

theorem witness_ClearReturnsToConfig :
    ∀ st ∈ [NodeState.config, .armed, .run, .safe], (nodeIn st).Takes .clear (requestOf []).args (requestOf []) := by
  intro st hs
  apply takes_of
  revert st
  decide +kernel

theorem witness_RestartReinitialises :
    ∀ st ∈ [NodeState.config, .armed, .run, .safe], (nodeIn st).Takes .restart (requestOf []).args (requestOf []) := by
  intro st hs
  apply takes_of
  revert st
  decide +kernel

/-- A node whose group 1 is LATCHED, with input 3 bound to it by a LATCH entry at a pin level. -/
def latched (pin : Bool) : State :=
  { nodeIn .run with
    prot :=
      { inputs := (nodeIn .run).prot.inputs.modify 3 fun x =>
          { x with entry := ⟨.activeHigh, some 1, 0, 0, .latch, 1⟩, pin := pin }
        groups := (nodeIn .run).prot.groups.modify 1 fun g => { g with state := .latched } } }

theorem witness_TripAckReleases :
    (nodeIn .config).Takes .tripAck (requestOf [0]).args (requestOf [0])
      ∧ (nodeIn .run).Takes .tripAck (requestOf [2]).args (requestOf [2])
      ∧ (nodeIn .run).Takes .tripAck (requestOf [1]).args (requestOf [1])
      ∧ ((nodeIn .run).prot.groups.get 1).state ≠ .latched
      ∧ ((latched true).Takes .tripAck (requestOf [1]).args (requestOf [1])
          ∧ ((latched true).prot.groups.get 1).state = .latched
          ∧ ∃ i, ((latched true).prot.inputs.get i).entry.group = some 1
              ∧ ((latched true).prot.inputs.get i).entry.action = .latch
              ∧ ((latched true).prot.inputs.get i).asserted = true)
      ∧ ((latched false).Takes .tripAck (requestOf [1]).args (requestOf [1])
          ∧ ((latched false).prot.groups.get 1).state = .latched
          ∧ ∀ i, ((latched false).prot.inputs.get i).entry.group = some 1 →
              ((latched false).prot.inputs.get i).entry.action = .latch →
              ((latched false).prot.inputs.get i).asserted = false) :=
  ⟨takes_of (by decide +kernel), takes_of (by decide +kernel), takes_of (by decide +kernel), by decide +kernel,
    ⟨takes_of (by decide +kernel), by decide +kernel, ⟨3, by decide +kernel⟩⟩,
    ⟨takes_of (by decide +kernel), by decide +kernel, by decide +kernel⟩⟩

theorem witness_LogAndCountersAreEmptied :
    (∀ k ∈ ([0, 1] : List Word),
      oneFault.Takes .faultPop (requestOf (wordBytes k)).args (requestOf (wordBytes k)))
    ∧ oneFault.log.records.map FaultRecord.number = [0]
    ∧ (nodeIn .run).Takes .faultPop (requestOf (wordBytes 0)).args (requestOf (wordBytes 0))
    ∧ (nodeIn .run).log.records = []
    ∧ (nodeIn .run).Takes .countersClear (requestOf []).args (requestOf []) := by
  refine ⟨fun k hk => takes_of ?_, by decide +kernel, takes_of (by decide +kernel), rfl,
    takes_of (by decide +kernel)⟩
  simp only [List.mem_cons, List.not_mem_nil, or_false] at hk
  rcases hk with rfl | rfl <;> decide +kernel

/-! ## Load jobs -/

/-- A node with a load job of blocks 0 to 6 in which `n` blocks are written. -/
def loading (st : JobState) (n : Nat) : State :=
  { nodeIn .config with
    load :=
      { state := st, first := 0, count := 7, next := n, checksum := crc16 (List.replicate 224 0), written := n
        prior := .editable, gap := 2000000, checkSeq := if st = .checking then some 3 else none, checkLeft := 300 }
    bank :=
      { (nodeIn .config).bank with
        imgB := [], shadow := if st = .receiving then .loading else if st = .checking then .checking else .editable } }

/-- LOAD BEGIN(first, count, 0). -/
def beginOf (first count : Byte) : Request := requestOf ([first, count] ++ wordBytes 0)

theorem witness_LoadBeginStartsAJob :
    (∀ x ∈ ([(0, 7), (6, 1), (7, 1), (0, 0), (0, 8), (6, 2)] : List (Byte × Byte)),
      (nodeIn .safe).Takes .loadBegin (beginOf x.1 x.2).args (beginOf x.1 x.2))
    ∧ (nodeIn .safe).load.state = .idle ∧ (nodeIn .safe).bank.shadow ≠ .frozen
    ∧ (loading .receiving 0).Takes .loadBegin (beginOf 0 7).args (beginOf 0 7)
    ∧ (loading .receiving 0).load.state ≠ .idle
    ∧ (shadowIn .run .frozen).Takes .loadBegin (beginOf 0 7).args (beginOf 0 7) := by
  refine ⟨fun x hx => takes_of ?_, rfl, by decide, takes_of (by decide +kernel), by decide,
    takes_of (by decide +kernel)⟩
  simp only [List.mem_cons, List.not_mem_nil, or_false] at hx
  rcases hx with rfl | rfl | rfl | rfl | rfl | rfl <;> decide +kernel

/-- LOAD DATA(index, 32 zeros). -/
def dataOf (index : Byte) : Request := requestOf (index :: List.replicate 32 0)

theorem witness_LoadDataWritesTheNextBlock :
    (∀ st ∈ [JobState.idle, .checking, .receiving], ∀ n ∈ [0, 6, 7], ∀ i ∈ ([0, 5, 6, 7, 255] : List Byte),
      (loading st n).Takes .loadData (dataOf i).args (dataOf i))
    ∧ (loading .receiving 6).load.next = 6 ∧ (loading .receiving 6).load.first + (loading .receiving 6).load.count = 7
    ∧ (loading .receiving 6).bank.shadowImage.wf = true := by
  refine ⟨fun st hs n hn i hi => takes_of ?_, rfl, rfl, rfl⟩
  revert st n i; decide +kernel

theorem witness_LoadEndAndCancel :
    ∀ st ∈ [JobState.idle, .checking, .receiving], ∀ n ∈ [6, 7],
      (loading st n).Takes .loadEnd (requestOf []).args (requestOf [])
        ∧ (loading st n).Takes .loadCancel (requestOf []).args (requestOf []) := by
  intro st hs n hn
  refine ⟨takes_of ?_, takes_of ?_⟩
  · revert st n; decide +kernel
  · revert st n; decide +kernel

/-- A check of one block of zeros; with `imgB` the shadow image. -/
def checkingOne (imgB : Memory) : State :=
  let s := loading .checking 7
  { s with
    load := { s.load with count := 1, next := 1, written := 1, checksum := crc16 (List.replicate 32 0) }
    bank := { s.bank with imgB := imgB } }

theorem witness_LoadJobEndsByItself :
    (loading .receiving 0).load.state = .receiving
      ∧ (∀ m ∈ [[], testImage], (checkingOne m).load.state = .checking)
      ∧ crc16 ((List.range (32 * (checkingOne []).load.count)).map fun k =>
          (checkingOne []).bank.shadowImage.read (32 * (checkingOne []).load.first + k)) = (checkingOne []).load.checksum
      ∧ crc16 ((List.range (32 * (checkingOne testImage).load.count)).map fun k =>
          (checkingOne testImage).bank.shadowImage.read (32 * (checkingOne testImage).load.first + k))
            ≠ (checkingOne testImage).load.checksum := by decide +kernel

/-! ## The tests every request passes -/

theorem intact_requestOf : Intact (requestOf []) (requestOf []).args := intact_of (by decide +kernel)

/-- A request with a reply area of `n` bytes. -/
def roomOf (n : Nat) (args : List Byte) : Request := { requestOf args with area := List.replicate n 0 }

theorem witness_RequestTests :
    ((0x15 : Byte) = 0 ∨ 0x14 < (0x15 : Byte).toNat) ∧ (nodeIn .run).Ready ∧ (nodeIn .run).node.state ≠ .unaddressed
      ∧ (requestOf []).dest = (nodeIn .run).roll.address
      ∧ (∀ n ∈ [0, 2, 3, 17, 18, 64], Intact (roomOf n []) (roomOf n []).args
          ∧ carried (.identify (roomOf n [])) = some (ReqKind.identify.code, (roomOf n []).args, roomOf n []))
      ∧ (roomOf 17 []).area.length < 3 + largestData .identify [] ∧ 3 + largestData .identify [] ≤ (roomOf 18 []).area.length
      ∧ argLengthOk .arm (requestOf []).args = false
      ∧ carried (.arm (requestOf [])) = some (ReqKind.arm.code, (requestOf []).args, requestOf []) := by
  refine ⟨by decide, ready_nodeIn _, by decide, rfl, fun n hn => ⟨intact_of ?_, rfl⟩, by decide +kernel,
    by decide +kernel, by decide, rfl⟩
  revert n; decide +kernel

/-- A node whose cache holds a record of sequence 1. -/
def remembering (k : ReqKind) (st : Status) (data : List Byte) : State :=
  { nodeIn .run with mgmt := { (nodeIn .run).mgmt with cache := [⟨1, k, st, data⟩] } }

theorem witness_ReplayExecutesNothing :
    (remembering .loadEnd .checkFailed [0x21, 0xFF]).Ready
      ∧ carried (.loadEnd (roomOf 5 [])) = some (ReqKind.loadEnd.code, (roomOf 5 []).args, roomOf 5 [])
      ∧ Intact (roomOf 5 []) (roomOf 5 []).args
      ∧ 3 + largestData .loadEnd (roomOf 5 []).args ≤ (roomOf 5 []).area.length
      ∧ (remembering .loadEnd .checkFailed [0x21, 0xFF]).mgmt.lookup 1 .loadEnd
          = some ⟨1, .loadEnd, .checkFailed, [0x21, 0xFF]⟩ :=
  ⟨ready_of (by decide +kernel), rfl, intact_of (by decide +kernel), by decide +kernel, by decide +kernel⟩

theorem witness_BroadcastTallies :
    (nodeIn .run).TakesBroadcast .commit (broadcastOf []).args (broadcastOf [])
      ∧ carried (.commit (broadcastOf [])) = some (ReqKind.commit.code, (broadcastOf []).args, broadcastOf [])
      ∧ (nodeIn .run).roll.address ≠ 255 ∧ Intact (broadcastOf []) (broadcastOf []).args
      ∧ Intact { broadcastOf [] with area := [0, 0] } (broadcastOf []).args
      ∧ carried (.unknownRequest 0x15 (broadcastOf [])) = some (0x15, (broadcastOf []).args, broadcastOf [])
      ∧ (remembering .stop .cancelled []).mgmt.lookup (broadcastOf []).seq .stop = some ⟨1, .stop, .cancelled, []⟩
      ∧ argLengthOk .arm (broadcastOf []).args = false ∧ (nodeIn .run).mgmt.lookup (broadcastOf []).seq .arm = none :=
  ⟨broadcast_of (by decide +kernel), rfl, by decide, intact_of (by decide +kernel), intact_of (by decide +kernel), rfl,
    by decide +kernel, by decide, by decide +kernel⟩

theorem witness_FailedCheckExecutesNothing :
    let r := { requestOf [] with damage := [(8, .byte 0)] }
    carried (.stop r) = some (0x09, r.args, r) ∧ (nodeIn .run).Ready ∧ r.dest = (nodeIn .run).roll.address
      ∧ Intact { r with damage := [] } r.args ∧ r.damage = [(8 + r.args.length, .byte 0)]
      ∧ (0 : Byte) ≠ crc8 ([r.dest, r.seq, 0x09, BitVec.ofNat 8 r.args.length] ++ r.args) :=
  ⟨rfl, ready_nodeIn _, rfl, intact_of (by decide +kernel), rfl, by decide +kernel⟩

/-! ## Ticks, boundaries, the Pattern Generator, trips -/

/-- A node in RUN whose boundary and whose TIMED trip are due in the same tick. -/
def dueNode : State :=
  { trippingNode with
    timer := { trippingNode.timer with tick := 999, wrapDue := true }
    prot := { trippingNode.prot with inputs := trippingNode.prot.inputs.modify 2 fun x => { x with count := 3 } } }

theorem witness_IdleStepIsOneTick :
    (∀ k ∈ [0, 999],
      let s := { nodeIn .run with timer := { (nodeIn .run).timer with tick := k } }
      s.pending = [] ∧ s.dueEvents = [] ∧ s.timer.running = true ∧ s.timer.tick < s.timer.len)
    ∧ (dueNode.pending = [] ∧ dueNode.dueEvents = [.periodBoundary, .plannedChange 0, .trip 2]
        ∧ dueNode.timer.running = true ∧ dueNode.timer.tick < dueNode.timer.len)
    ∧ (∀ n ∈ [0, 3],
        let x := { trippingNode.prot.inputs.get 2 with count := n }
        x.canTrip .run = true ∧ x.count ≤ x.entry.filter.toNat)
    ∧ trippingNode.node.state = .run := by
  decide +kernel

theorem witness_BoundaryInSafe :
    (nodeIn .safe).timer.running = true ∧ (nodeIn .safe).node.state = .safe ∧ (nodeIn .safe).bank.commit = none
      ∧ (nodeIn .config).timer.running = false := by decide +kernel

theorem witness_BoundaryInArmed :
    (nodeIn .armed).timer.running = true ∧ (nodeIn .armed).node.start ≠ some ((nodeIn .armed).timer.period + 1)
      ∧ (let s := { nodeIn .armed with node := { (nodeIn .armed).node with loss := 1 } }
         s.node.loss + 1 < imageLossTimeout s.nextPeriod.bank.activeImage)
      ∧ (∃ x rest, (fullQueue.queue.get 0).records = x :: rest ∧ x.target = fullQueue.timer.period + 1) := by
  refine ⟨by decide +kernel, by decide +kernel, by decide +kernel, _, _, rfl, rfl⟩

/-- A bank whose channel 0 is LEADING with a hold action: OFF for 0, SAFE for 1. -/
def leadingImage (action : Byte) : Memory := Memory.write (Memory.write testImage 16 1) 26 action

theorem witness_SelectionTable :
    channelPattern (leadingImage 1) 0 = .leading ∧ channelPattern (leadingImage 1) 1 = .off
      ∧ imageHoldLimit (leadingImage 1) = 2 ∧ channelByte (leadingImage 1) 0 10 ≠ 0 ∧ channelByte (leadingImage 0) 0 10 = 0
      ∧ (∃ x rest, (fullQueue.queue.get 0).records = x :: rest ∧ x.target = 11)
      ∧ (∀ x ∈ (fullQueue.queue.get 0).records.head?, x.target ≠ 10) := by
  refine ⟨by decide +kernel, by decide +kernel, by decide +kernel, by decide +kernel, by decide +kernel, ⟨_, _, rfl, rfl⟩,
    by decide +kernel⟩

/-- A node in a state with `leadingImage` active, channel 0's hold counter at `h`. -/
def holding (st : NodeState) (action : Byte) (h : Nat) : State :=
  { nodeIn st with
    bank := { (nodeIn st).bank with imgA := leadingImage action }
    queue := (nodeIn st).queue.modify 0 fun q => { q with hold := h }
    timer := { (nodeIn st).timer with period := 11 } }

theorem witness_BoundaryInRun :
    (∀ st ∈ [NodeState.run, .armed], ∀ h ∈ [1, 2],
      (holding st 0 h).timer.running = true
        ∧ ((holding st 0 h).node.state = .run
            ∨ (holding st 0 h).node.state = .armed ∧ (holding st 0 h).node.start = some ((holding st 0 h).timer.period + 1))
        ∧ (holding st 0 h).node.loss + 1 < imageLossTimeout (holding st 0 h).nextPeriod.bank.activeImage
        ∧ ∀ c, ((holding st 0 h).selected c).raises = false)
    ∧ ((holding .run 0 1).selected 0).handed = .use 0 0 ∧ ((holding .run 0 2).selected 0).handed = .holdOff
    ∧ ((holding .run 0 2).selected 1).handed = .nothing
    ∧ channelPattern (holding .run 0 2).nextPeriod.bank.activeImage 1 ≠ .fixed
    ∧ channelPattern (Memory.write testImage 16 4) 0 = .fixed := by decide +kernel

theorem witness_BoundarySwapsThePendingCommit :
    let s := { committing .run with timer := { (nodeIn .run).timer with period := 11 } }
    s.timer.running = true ∧ s.node.state = .run ∧ s.bank.commit = some ⟨s.timer.period + 1, 9⟩
      ∧ (∀ p ∈ (committing .run).bank.commit, p.period ≠ (committing .run).timer.period + 1)
      ∧ (after .periodBoundary (committing .run)).node.state ≠ .safe := by decide +kernel

theorem witness_BoundaryEntersSafe :
    (let s := { nodeIn .armed with node := { (nodeIn .armed).node with loss := 2 } }
     s.timer.running = true ∧ s.node.state = .armed
        ∧ imageLossTimeout s.nextPeriod.bank.activeImage ≤ s.node.loss + 1)
    ∧ ((holding .run 1 2).timer.running = true ∧ (holding .run 1 2).node.state = .run
        ∧ (holding .run 1 2).node.loss + 1 < imageLossTimeout (holding .run 1 2).nextPeriod.bank.activeImage
        ∧ ((holding .run 1 2).selected 0).raises = true ∧ ∀ d, d < 0 → ((holding .run 1 2).selected d).raises = false) := by
  decide +kernel

theorem witness_PlannedChangeTakesTheNextInterval :
    drivenNode.node.state = .run ∧ (drivenNode.gen.get 0).nextChange = some 300
      ∧ (drivenNode.gen.get 1).nextChange = none := by decide +kernel

theorem witness_DeadTimeEndShowsTheRun :
    let s := after (.plannedChange 0) drivenNode
    (s.gen.get 0).dead = some 20 ∧ (s.gen.get 1).dead = none ∧ s.node.state = .run ∧ (s.elapse 20).timer.wrapDue = false
      ∧ (s.gen.get 0).nextChange = none := by decide +kernel

theorem witness_PlanOfPattern : (3 : Nat) ≤ 10 ∧ 9 < 10 ∧ 0 < 10 ∧ 10 ≤ 10 := by decide

theorem witness_PlanShiftedAndFixed :
    0 < 10 ∧ 3 ≤ 10 ∧ ([⟨2, .hi⟩, ⟨5, .lo⟩] : List Interval).Pairwise (fun a b => a.first < b.first) ∧ 1 < 10 := by decide

theorem witness_ClampTakesTwoSteps : (19000 : Nat) ≤ 20000 := by decide

/-- `trippingNode` with its input's action and its group's state and escalation values. -/
def tripping (a : TripAction) (st : GroupState) (e : Byte) (esc : Nat) : State :=
  { trippingNode with
    prot :=
      { inputs := trippingNode.prot.inputs.modify 2 fun x => { x with entry := { x.entry with action := a } }
        groups := trippingNode.prot.groups.modify 0 fun g => { g with entry := ⟨e, 1⟩, state := st, esc := esc } } }

theorem witness_TripActsOnItsGroup :
    ∀ a ∈ [TripAction.cycle, .timed, .latch], ∀ st ∈ [GroupState.enabled, .cycleOff, .timedOff, .latched],
      ∀ e ∈ ([0, 3] : List Byte),
        ((tripping a st e 2).prot.inputs.get 2).canTrip (tripping a st e 2).node.state = true
          ∧ ((tripping a st e 2).prot.inputs.get 2).entry.group = some 0 := by decide +kernel

theorem witness_PinEvents :
    (nodeIn .run).pins.drvOk = true ∧ (nodeIn .run).node.state = .run ∧ (nodeIn .config).node.state ≠ .run
      ∧ ({ nodeIn .run with pins := ⟨true, true, false⟩ } : State).pins.drvOk = false := by decide

theorem witness_RestoreTimerExpires :
    (tripping .timed .timedOff 0 0).node.state = .run
      ∧ ((tripping .timed .timedOff 0 0).prot.groups.get 0).state = .timedOff
      ∧ (∃ i, ((tripping .timed .timedOff 0 0).prot.inputs.get i).entry.group = some 0
          ∧ ((tripping .timed .timedOff 0 0).prot.inputs.get i).entry.action = .timed
          ∧ ((tripping .timed .timedOff 0 0).prot.inputs.get i).asserted = true)
      ∧ (∀ i, ¬ (((tripping .cycle .timedOff 0 0).prot.inputs.get i).entry.group = some 0
          ∧ ((tripping .cycle .timedOff 0 0).prot.inputs.get i).entry.action = .timed
          ∧ ((tripping .cycle .timedOff 0 0).prot.inputs.get i).asserted = true)) :=
  ⟨rfl, by decide +kernel, ⟨2, by decide +kernel⟩, by decide +kernel⟩

theorem witness_FaultLogAppendStoresOrDrops :
    (List.replicate 7 (⟨0, .linkLoss, .run, 0, 0, none, none, none⟩ : FaultRecord)).length ≤ 7
      ∧ (List.replicate 8 (⟨0, .linkLoss, .run, 0, 0, none, none, none⟩ : FaultRecord)).length = 8 := by decide

/-! ## The invariants: a node in RUN with a command waiting meets each of them and steps -/

/-- A node in RUN with DRV_OK_RISE waiting. -/
def waiting : State := { nodeIn .run with pending := [.drvOkRise] }

theorem witness_step : ∃ t, step waiting = .next t := ⟨_, rfl⟩

theorem witness_StorageInvariant : waiting.StorageOk := ⟨by decide, by decide, by decide⟩

theorem witness_GatesInvariant : waiting.GatesOk :=
  ⟨by decide +kernel, by decide +kernel, fun h => absurd rfl h⟩

theorem witness_AddressInvariant : waiting.AddressOk :=
  ⟨by decide +kernel, by decide +kernel, fun _ h => (by cases h), fun h => (by cases h)⟩

theorem witness_RecordsInvariant : waiting.RecordsOk :=
  ⟨counters_nodeIn .run, by decide, by decide, fun _ => rfl, fun k r h => by cases k <;> cases h⟩

theorem witness_GroupsInvariant : waiting.GroupsOk := by
  constructor <;> decide +kernel

theorem witness_ControlInvariant : waiting.ControlOk := by
  constructor <;> decide +kernel

theorem witness_QueuesInvariant : waiting.QueuesOk :=
  ⟨by decide +kernel, by decide +kernel, by decide +kernel, by decide +kernel, by decide +kernel, by decide +kernel⟩

end Sys2Proof.Machine
end

/-! ## COPY ACTIVE (R20) -/

namespace Sys2Proof.Machine

/-- The banks after an accepted COPY ACTIVE (R20). -/
def BankStore.copyActive (b : BankStore) : BankStore :=
  { b.setShadow b.activeImage with shadow := .editable }

/-- What an accepted COPY ACTIVE writes and what it keeps: the shadow image is the active one, byte for byte. -/
theorem BankStore.copyActive_spec (b : BankStore) :
    b.copyActive.active = b.active ∧ b.copyActive.cond = b.cond ∧ b.copyActive.shadow = .editable
      ∧ b.copyActive.commit = b.commit ∧ b.copyActive.activeImage = b.activeImage
      ∧ ∀ a, b.copyActive.shadowImage.read a = b.activeImage.read a := by
  obtain ⟨himage, hactiveImage, hactive, hcond, _, hcommit⟩ := b.setShadow_spec b.activeImage
  exact ⟨hactive, hcond, rfl, hcommit, hactiveImage, fun a => congrArg (Memory.read · a) himage⟩

/-- COPY ACTIVE accepted: of the node's state only the banks change. -/
theorem ownCopyActive_accepted (s : State) (h : s.bank.shadow = .editable ∨ s.bank.shadow = .broken) :
    ownCopyActive s = answer { s with bank := s.bank.copyActive } .done := by
  unfold ownCopyActive
  obtain h | h := h <;> rw [h] <;> rfl

/-- COPY ACTIVE refused: the state stays as it was. -/
theorem ownCopyActive_busy (s : State)
    (h : s.bank.shadow = .loading ∨ s.bank.shadow = .checking ∨ s.bank.shadow = .frozen) :
    ownCopyActive s = answer s .refusedBusy := by
  unfold ownCopyActive
  obtain h | h | h := h <;> rw [h]

/-- COPY ACTIVE is a request handed to the link with the code of its kind. -/
theorem exec_copyActive (r : Request) (s : State) :
    exec (.copyActive r) s = .next (s.feedRequest ReqKind.copyActive.code r.args r) := rfl

/-- Settles O19: both outcomes are the owner's answer on the cache with room made, which leaves the banks alone. -/
theorem copyActiveCopiesTheImage : Obligations.CopyActiveCopiesTheImage := by
  intro s r htakes
  constructor
  · intro hshadow
    refine ⟨s.bank.copyActive, ?_, s.bank.copyActive_spec⟩
    exact htakes.answers_cached (exec_copyActive r s) rfl (ownCopyActive_accepted _ hshadow) (Nat.zero_le _) rfl
  · intro hshadow
    exact htakes.answers_cached (exec_copyActive r s) rfl (ownCopyActive_busy _ hshadow) (Nat.zero_le _) rfl

end Sys2Proof.Machine

/-! ## Broadcast requests (R159) -/

namespace Sys2Proof.Machine

/-- The decision of a cached kind without a record, from the owner's answer on the cache with room made (R155, R156). -/
theorem decideKind_cached {s t0 t : State} {k : ReqKind} {seq : Byte} {args data : List Byte} {st : Status}
    (hk : k.cached = true) (hform : argLengthOk k args = true) (hfresh : s.mgmt.lookup seq k = none)
    (ho : own k seq args { s with mgmt := s.mgmt.makeRoom seq } = ⟨t0, st, data⟩)
    (ht : { t0 with mgmt := t0.mgmt.insert ⟨seq, k, st, data⟩ } = t) :
    decideKind k seq args s = (⟨t, st, data⟩, false) := by
  simp only [decideKind, hk, if_true, hfresh, decideCached, decideNew, hform, ho, ht]

/-- The decision of a broadcast with room for its tallies, of a kind that may be broadcast: the kind's own, its status
counted in a tally. -/
theorem State.outcome_broadcast (s : State) {k : ReqKind} {seq : Byte} {args : List Byte} {capacity : Nat}
    (hk : k.mayBroadcast = true) (hroom : 3 ≤ capacity) :
    s.outcome seq args .broadcast k.code capacity
      = ((decideKind k seq args s).1.st, some (.tally (decideKind k seq args s).1.status.tally)) := by
  simp only [State.outcome, State.outcomeBroadcast, ReqKind.ofCode_code, if_neg (Nat.not_lt.mpr hroom), hk, if_true]

/-- A broadcast that is decided as new (R159): the effects of its kind, counted in the tally of its status. -/
theorem State.TakesBroadcast.tallied {s : State} {k : ReqKind} {args : List Byte} {r : Request}
    (h : s.TakesBroadcast k args r) {i : Instr} (hi : exec i s = .next (s.feedRequest k.code args r))
    (hk : k.mayBroadcast = true) :
    Tallied i k.code args r s (decideKind k r.seq args s).1.status.tally (decideKind k r.seq args s).1.st := by
  obtain ⟨relay, frame, hpassed, hfeed⟩ := State.feedRequest_spec s k.code args r h.ready h.addressed h.intact
  have hmatch : matchOf r.dest s.roll.address = .broadcast := by
    rw [matchOf, if_neg (h.dest ▸ h.other.symm), if_pos h.dest]
  rw [hmatch, s.outcome_broadcast hk h.room] at hpassed hfeed
  exact ⟨relay, frame, by rw [hi, hfeed]; rfl, hpassed⟩

/-- A broadcast of a cached kind, from the owner's answer on the cache with room made. -/
theorem State.TakesBroadcast.tallied_cached {s t0 t : State} {k : ReqKind} {args data : List Byte} {r : Request}
    {st : Status} {n : Nat} (h : s.TakesBroadcast k args r) {i : Instr}
    (hi : exec i s = .next (s.feedRequest k.code args r)) (hb : k.mayBroadcast = true) (hk : k.cached = true)
    (ho : own k r.seq args { s with mgmt := s.mgmt.makeRoom r.seq } = ⟨t0, st, data⟩)
    (hn : st.tally = n) (ht : { t0 with mgmt := t0.mgmt.insert ⟨r.seq, k, st, data⟩ } = t) :
    Tallied i k.code args r s n t := by
  have htallied := h.tallied hi hb
  rwa [decideKind_cached hk h.form (h.fresh hk) ho ht, hn] at htallied

end Sys2Proof.Machine

/-! ## STOP (R32) -/

namespace Sys2Proof.Machine

/-- An entry into SAFE without a fault record, which STOP makes, keeps the log (R32, R33). -/
theorem State.enterSafe_unrecorded (s : State) (cause : SafeCause) (h : s.node.state.live = true) :
    s.enterSafe cause none none = s.safeFrom cause := by
  rw [s.enterSafe_live cause none none h]
  rfl

/-- STOP in ARMED and RUN: the whole entry into SAFE. -/
theorem ownStop_live (s : State) (h : s.node.state = .armed ∨ s.node.state = .run) :
    ownStop s = answer (s.safeFrom .stop) .done := by
  have hlive : s.node.state.live = true := (NodeState.live_iff _).mpr h
  rw [ownStop, if_pos hlive, s.enterSafe_unrecorded .stop hlive]

/-- STOP in SAFE is done without an effect: the cause of SAFE is kept. -/
theorem ownStop_safe (s : State) (h : s.node.state = .safe) : ownStop s = answer s .done := by
  simp [ownStop, h, NodeState.live]

/-- STOP in CONFIG is refused. -/
theorem ownStop_config (s : State) (h : s.node.state = .config) : ownStop s = answer s .refusedState := by
  simp [ownStop, h, NodeState.live]

/-- STOP is a request handed to the link with the code of its kind. -/
theorem exec_stop (r : Request) (s : State) : exec (.stop r) s = .next (s.feedRequest ReqKind.stop.code r.args r) := rfl

/-- Settles O25: an addressed and a broadcast STOP get the same answer of the owner on the cache with room made, which
leaves the node state to decide. -/
theorem stopEntersSafe : Obligations.StopEntersSafe := by
  refine ⟨rfl, rfl, fun s r => ?_⟩
  intro u stopped kept
  have hlive (h : s.node.state = .armed ∨ s.node.state = .run) : ownStop u = answer (u.safeFrom .stop) .done :=
    ownStop_live u h
  have hsafe (h : s.node.state = .safe) : ownStop u = answer u .done := ownStop_safe u h
  have hconfig (h : s.node.state = .config) : ownStop u = answer u .refusedState := ownStop_config u h
  refine ⟨rfl, rfl, rfl, fun htakes => ⟨?_, ?_, ?_⟩, fun htakes => ⟨?_, ?_, ?_⟩⟩
  · exact fun h => htakes.answers_cached (exec_stop r s) rfl (hlive h) (Nat.zero_le _) rfl
  · exact fun h => htakes.answers_cached (exec_stop r s) rfl (hsafe h) (Nat.zero_le _) rfl
  · exact fun h => htakes.answers_cached (exec_stop r s) rfl (hconfig h) (Nat.zero_le _) rfl
  · exact fun h => htakes.tallied_cached (exec_stop r s) rfl rfl (hlive h) rfl rfl
  · exact fun h => htakes.tallied_cached (exec_stop r s) rfl rfl (hsafe h) rfl rfl
  · exact fun h => htakes.tallied_cached (exec_stop r s) rfl rfl (hconfig h) rfl rfl

end Sys2Proof.Machine

/-! ## Arrivals (R45 to R49) -/

namespace Sys2Proof.Machine

/-! ### The fate of a record (R46 to R48) -/

/-- A record that is not ahead is LATE (R46). -/
theorem classify_late {now : Word} {l : List Setpoint} {r : Setpoint}
    (h : distance now r.target = 0 ∨ 32768 ≤ distance now r.target) : classify now l r = .late := by
  have hwithin : within now r.target 32767 = false := by
    simp only [within, Bool.and_eq_false_iff, decide_eq_false_iff_not]
    omega
  rw [classify, if_pos hwithin]

/-- The distance test leaves a record that is ahead to the tests after it (R46). -/
theorem classify_ahead {now : Word} {l : List Setpoint} {r : Setpoint}
    (h1 : 1 ≤ distance now r.target) (h2 : distance now r.target ≤ 32767) :
    classify now l r =
      if 16 ≤ distance now r.target then .far
      else if l.any fun x => decide (x.target = r.target) then .replaced
      else if 4 ≤ l.length then .overrun
      else .inserted := by
  simp [classify, within, h1, h2]

/-- A record further ahead than 15 periods is FAR (R46). -/
theorem classify_far {now : Word} {l : List Setpoint} {r : Setpoint}
    (h1 : 16 ≤ distance now r.target) (h2 : distance now r.target ≤ 32767) : classify now l r = .far := by
  rw [classify_ahead (by omega) h2, if_pos h1]

section
variable {now : Word} {l : List Setpoint} {r : Setpoint}
  (h1 : 1 ≤ distance now r.target) (h2 : distance now r.target ≤ 15)
include h1 h2

/-- A record whose target is queued replaces, in a full queue too (R47). -/
theorem classify_replaced (hold : ∃ x ∈ l, x.target = r.target) : classify now l r = .replaced := by
  have hany : l.any (fun x => decide (x.target = r.target)) = true := by simpa using hold
  rw [classify_ahead h1 (by omega), if_neg (by omega), if_pos hany]

/-- A record with a target of its own is classified by the length of the queue (R48, R49). -/
theorem classify_fresh (hold : ∀ x ∈ l, x.target ≠ r.target) :
    classify now l r = if 4 ≤ l.length then .overrun else .inserted := by
  have hany : ¬ l.any (fun x => decide (x.target = r.target)) = true := by simpa using hold
  rw [classify_ahead h1 (by omega), if_neg (by omega), if_neg hany]

end

/-! ### The place of an inserted record (R49) -/

/-- An insertion splits the queue after records that are no further and before a further one; the order of the queue is
not needed for that. -/
theorem insertRecord_split (now : Word) (r : Setpoint) (l : List Setpoint) :
    ∃ a b, l = a ++ b ∧ insertRecord now r l = a ++ r :: b
      ∧ (∀ x ∈ a, distance now x.target ≤ distance now r.target)
      ∧ (∀ x ∈ b.head?, distance now r.target < distance now x.target) := by
  induction l with
  | nil => exact ⟨[], [], rfl, rfl, by simp, by simp⟩
  | cons y l ih =>
    by_cases hy : distance now r.target < distance now y.target
    · exact ⟨[], y :: l, rfl, by simp [insertRecord, hy], by simp, by simpa using hy⟩
    · obtain ⟨a, b, hl, hins, hnear, hfar⟩ := ih
      refine ⟨y :: a, b, by rw [hl]; rfl, by simp [insertRecord, hy, hins], ?_, hfar⟩
      exact List.forall_mem_cons.mpr ⟨Nat.le_of_not_lt hy, hnear⟩

/-! ### Taking one record -/

/-- A taken record changes at most its channel's queue and one counter, both as its fate says (R45). -/
theorem State.takeRecord_eq (s : State) (r : Setpoint) {f : Fate}
    (hf : classify s.timer.period (s.queue.get r.chan).records r = f) :
    s.takeRecord r =
      { s with
        queue := s.queue.modify r.chan fun q => { q with records := f.apply s.timer.period r q.records }
        counters := f.counter.elim s.counters (s.counters.add 1) } := by
  subst hf
  rw [State.takeRecord]
  cases (classify s.timer.period (s.queue.get r.chan).records r).counter <;> rfl

/-- The record's own queue, and the counters, after a record of known fate. -/
theorem State.takeRecord_fate (s : State) (r : Setpoint) {f : Fate}
    (hf : classify s.timer.period (s.queue.get r.chan).records r = f) :
    ((s.takeRecord r).queue.get r.chan).records = f.apply s.timer.period r (s.queue.get r.chan).records
      ∧ (s.takeRecord r).counters = f.counter.elim s.counters (s.counters.add 1) := by
  rw [s.takeRecord_eq r hf]
  exact ⟨by rw [Six.get_modify_self], rfl⟩

theorem State.takeRecord_frame (s : State) (r : Setpoint) :
    s.takeRecord r = { s with queue := (s.takeRecord r).queue, counters := (s.takeRecord r).counters } := by
  rw [s.takeRecord_eq r rfl]

@[simp] theorem State.takeRecord_node (s : State) (r : Setpoint) : (s.takeRecord r).node = s.node := by
  rw [s.takeRecord_frame r]

theorem State.takeRecord_queue_ne (s : State) (r : Setpoint) {c : Fin 6} (hc : c ≠ r.chan) :
    (s.takeRecord r).queue.get c = s.queue.get c := by
  rw [s.takeRecord_eq r rfl, Six.get_modify, if_neg hc]

/-- Of the record's own channel only the queued records change: last values, hold counter and hold-off flag stay. -/
theorem State.takeRecord_queue_self (s : State) (r : Setpoint) :
    (s.takeRecord r).queue.get r.chan =
      { s.queue.get r.chan with records := ((s.takeRecord r).queue.get r.chan).records } := by
  rw [s.takeRecord_eq r rfl, Six.get_modify_self]

/-! ### Taking an arrival -/

/-- The state test of R45 discards an arrival outside ARMED and RUN. -/
theorem State.takeArrival_not_live {s : State} (l : List Setpoint) (h : s.node.state.live = false) :
    s.takeArrival l = s := by
  simp [State.takeArrival, h]

theorem State.takeArrival_live {s : State} (l : List Setpoint) (h : s.node.state.live = true) :
    s.takeArrival l = l.foldl State.takeRecord s := by
  rw [State.takeArrival, if_pos h]

theorem State.takeArrival_single {s : State} (r : Setpoint) (h : s.node.state.live = true) :
    s.takeArrival [r] = s.takeRecord r :=
  s.takeArrival_live [r] h

/-- The records of an arrival are taken one after the other: none of them changes the node state that is tested. -/
theorem State.takeArrival_cons {s : State} (r : Setpoint) (l : List Setpoint) (h : s.node.state.live = true) :
    s.takeArrival (r :: l) = (s.takeArrival [r]).takeArrival l := by
  have hlive : (s.takeRecord r).node.state.live = true := by rwa [s.takeRecord_node]
  rw [s.takeArrival_single r h, (s.takeRecord r).takeArrival_live l hlive, s.takeArrival_live (r :: l) h,
    List.foldl_cons]

/-- Settles O12: the distance and the record's own queue give its fate, and the fate gives queue and counter. -/
theorem arrivalIsClassified : Obligations.ArrivalIsClassified := by
  refine ⟨fun s l harmed hrun => ?_, fun s r l h => ?_, fun s r h => ?_⟩
  · exact s.takeArrival_not_live l ((NodeState.not_live_iff _).mpr ⟨harmed, hrun⟩)
  · exact s.takeArrival_cons r l ((NodeState.live_iff _).mpr h)
  have htaken : s.takeArrival [r] = s.takeRecord r := s.takeArrival_single r ((NodeState.live_iff _).mpr h)
  refine ⟨s.takeRecord r, htaken, s.takeRecord_frame r, fun c hc => s.takeRecord_queue_ne r hc,
    s.takeRecord_queue_self r, ?_, ?_, ?_, ?_, ?_⟩
  · exact fun hd => s.takeRecord_fate r (classify_late hd)
  · exact fun ⟨h1, h2⟩ => s.takeRecord_fate r (classify_far h1 h2)
  · exact fun ⟨h1, h2⟩ hold => s.takeRecord_fate r (classify_replaced h1 h2 hold)
  · intro ⟨h1, h2⟩ hold hfull
    exact s.takeRecord_fate r ((classify_fresh h1 h2 hold).trans (if_pos hfull))
  · intro ⟨h1, h2⟩ hold hroom
    have hfate := (classify_fresh h1 h2 hold).trans (if_neg (Nat.not_le.mpr hroom))
    obtain ⟨hnew, hcounters⟩ := s.takeRecord_fate r hfate
    refine ⟨hcounters, ?_⟩
    rw [hnew]
    exact insertRecord_split s.timer.period r (s.queue.get r.chan).records

end Sys2Proof.Machine

/-! ## The unshifted plan of a pattern (R66) -/

namespace Sys2Proof.Machine

/-! ### What each step of a plan's making does -/

/-- A shift by no ticks keeps the spans of the period (R67). -/
theorem shift_zero {L : Nat} {l : List Span} (h : ∀ x ∈ l, x.first < L ∧ x.stop ≤ L) : shift L 0 l = l := by
  have hwrapped : l.filterMap (Span.wrapped L 0) = [] :=
    List.filterMap_eq_nil_iff.mpr fun x hx => if_neg (Nat.not_lt.mpr (h x hx).2)
  have hshifted : ∀ x ∈ l, Span.shifted L 0 x = some x := fun x hx => by
    obtain ⟨hfirst, hstop⟩ := h x hx
    simp [Span.shifted, hfirst, hstop]
  rw [shift, hwrapped, List.nil_append, List.filterMap_congr hshifted, List.filterMap_some]

/-- The last interval of a plan gives the planned state from its first tick on. -/
theorem planLevel_concat (l : List Interval) (x : Interval) (k : Nat) :
    planLevel (l ++ [x]) k = if x.first ≤ k then x.level else planLevel l k := by
  unfold planLevel
  by_cases hx : x.first ≤ k <;> simp [List.filter_append, hx]

/-! ### The three patterns are one: LO with a HI window -/

/-- The tick at which a pattern's HI window begins (R66). -/
def Pattern.rise (p : Pattern) (L on : Nat) : Nat :=
  match p with
  | .leading => 0
  | .trailing => L - on
  | .centered => (L - on) / 2
  | .off => 0
  | .fixed => 0

/-- LO, HI for `on` ticks from tick `rise`, LO again: the spans in a period of `L` ticks, empty ones among them. -/
def windowSpans (L rise on : Nat) : List Span := [⟨0, rise, .lo⟩, ⟨rise, rise + on, .hi⟩, ⟨rise + on, L, .lo⟩]

/-- The plan that is HI for `on` ticks from tick `rise` and LO elsewhere. -/
def windowPlan (L rise on : Nat) : List Interval :=
  if on = 0 then [⟨0, .lo⟩]
  else (if rise = 0 then [] else [⟨0, .lo⟩]) ++ [⟨rise, .hi⟩] ++ (if rise + on < L then [⟨rise + on, .lo⟩] else [])

theorem Pattern.rise_add_le (p : Pattern) {L on : Nat} (hon : on ≤ L) : p.rise L on + on ≤ L := by
  cases p <;> simp only [Pattern.rise] <;> omega

/-- LEADING has no LO span before its window and TRAILING none after it: an empty span is no part of a plan. -/
theorem unshifted_eq_window {p : Pattern} {L on : Nat} (hp : p = .leading ∨ p = .trailing ∨ p = .centered)
    (hon : on ≤ L) :
    unshifted p L on = (windowSpans L (p.rise L on) on).filter fun x => decide (x.first < x.stop) := by
  obtain rfl | rfl | rfl := hp
  · simp [unshifted, patternSpans, windowSpans, Pattern.rise]
  · simp [unshifted, patternSpans, windowSpans, Pattern.rise, Nat.sub_add_cancel hon, List.filter_cons]
  · rfl

/-- The spans around a window without ticks join to one LO interval; beside any other window neighbours differ. -/
theorem join_window {L rise on : Nat} (hL : 0 < L) :
    join (((windowSpans L rise on).filter fun x => decide (x.first < x.stop)).map fun x => ⟨x.first, x.level⟩)
      = windowPlan L rise on := by
  obtain rfl | hpos := Nat.eq_zero_or_pos on
  · obtain rfl | hrise := Nat.eq_zero_or_pos rise
    · simp [windowSpans, windowPlan, hL, join, joinFrom]
    · by_cases hend : rise < L <;> simp [windowSpans, windowPlan, hrise, hend, join, joinFrom]
  · obtain rfl | hrise := Nat.eq_zero_or_pos rise
    · by_cases hend : on < L <;> simp [windowSpans, windowPlan, hpos, hpos.ne', hend, join, joinFrom]
    · by_cases hend : rise + on < L <;>
        simp [windowSpans, windowPlan, hpos, hpos.ne', hrise, hrise.ne', hend, join, joinFrom]

/-- The plan without a phase is LO with the pattern's HI window. -/
theorem drivenPlan_eq_window {p : Pattern} {L on : Nat} (hp : p = .leading ∨ p = .trailing ∨ p = .centered)
    (hL : 0 < L) (hon : on ≤ L) : drivenPlan p L on 0 = windowPlan L (p.rise L on) on := by
  have hwindow := p.rise_add_le hon
  have hinside : ∀ x ∈ unshifted p L on, x.first < L ∧ x.stop ≤ L := by
    simp only [unshifted_eq_window hp hon, windowSpans, List.mem_filter, List.mem_cons, List.not_mem_nil, or_false,
      decide_eq_true_eq]
    rintro x ⟨rfl | rfl | rfl, hnonempty⟩ <;> dsimp only at hnonempty ⊢ <;> omega
  rw [drivenPlan, Nat.zero_mod, shift_zero hinside, unshifted_eq_window hp hon, join_window hL]

/-! ### The plan with a HI window -/

theorem windowPlan_zero (L rise : Nat) : windowPlan L rise 0 = [⟨0, .lo⟩] := rfl

theorem windowPlan_full {L : Nat} (hL : 0 < L) : windowPlan L 0 L = [⟨0, .hi⟩] := by
  simp [windowPlan, hL.ne']

theorem windowPlan_head (L rise on : Nat) : (windowPlan L rise on).head?.map Interval.first = some 0 := by
  by_cases hon : on = 0 <;> by_cases hrise : rise = 0 <;> simp [windowPlan, hon, hrise]

theorem windowPlan_pairwise (L rise on : Nat) : (windowPlan L rise on).Pairwise fun a b => a.first < b.first := by
  obtain rfl | hpos := Nat.eq_zero_or_pos on
  · simp [windowPlan]
  · obtain rfl | hrise := Nat.eq_zero_or_pos rise
    · by_cases hend : on < L <;> simp [windowPlan, hpos, hpos.ne', hend]
    · by_cases hend : rise + on < L <;> simp [windowPlan, hpos, hpos.ne', hrise, hrise.ne', hend]

/-- Every interval begins within the period, and none is OFF. -/
theorem windowPlan_inside {L rise on : Nat} (hL : 0 < L) (hwindow : rise + on ≤ L) :
    ∀ x ∈ windowPlan L rise on, x.first < L ∧ x.level ≠ .off := by
  obtain rfl | hpos := Nat.eq_zero_or_pos on
  · simp [windowPlan, hL]
  · have hrise : rise < L := by omega
    by_cases hzero : rise = 0 <;> by_cases hend : rise + on < L <;>
      simp [windowPlan, hpos.ne', hzero, hend, hrise, hL]

/-- The plan is HI at the ticks of its window and LO at every other tick. -/
theorem planLevel_windowPlan {L rise on k : Nat} (hk : k < L) :
    planLevel (windowPlan L rise on) k = if k < rise then .lo else if k < rise + on then .hi else .lo := by
  have hlow : planLevel [⟨0, .lo⟩] k = .lo := rfl
  obtain rfl | hpos := Nat.eq_zero_or_pos on
  · simp [windowPlan_zero, hlow]
  have hbegin : planLevel ((if rise = 0 then [] else [⟨0, .lo⟩]) ++ [⟨rise, .hi⟩]) k
      = if k < rise then .lo else .hi := by
    rw [planLevel_concat]
    by_cases hrise : k < rise
    · rw [if_pos hrise, if_neg (Nat.not_le.mpr hrise), if_neg (by omega), hlow]
    · rw [if_neg hrise, if_pos (Nat.not_lt.mp hrise)]
  rw [windowPlan, if_neg hpos.ne']
  by_cases hend : rise + on < L
  · rw [if_pos hend, planLevel_concat, hbegin]
    by_cases hbefore : k < rise + on
    · rw [if_neg (Nat.not_le.mpr hbefore), if_pos hbefore]
    · rw [if_pos (Nat.not_lt.mp hbefore), if_neg (show ¬ k < rise by omega), if_neg hbefore]
  · rw [if_neg hend, List.append_nil, hbegin, if_pos (show k < rise + on by omega)]

/-- The planned states of a pattern without a phase. -/
theorem planLevel_drivenPlan {p : Pattern} {L on k : Nat} (hp : p = .leading ∨ p = .trailing ∨ p = .centered)
    (hon : on ≤ L) (hk : k < L) :
    planLevel (drivenPlan p L on 0) k =
      if k < p.rise L on then .lo else if k < p.rise L on + on then .hi else .lo := by
  rw [drivenPlan_eq_window hp (by omega) hon, planLevel_windowPlan hk]

/-- Settles O47: every pattern's plan is the plan of its HI window, which begins at tick 0, at L − on, or halfway. -/
theorem planOfPattern : Obligations.PlanOfPattern := by
  refine ⟨fun L on k hon hk => ⟨?_, ?_, ?_⟩, fun p L on hp hL hon => ?_⟩
  · simp [planLevel_drivenPlan (.inl rfl) hon hk, Pattern.rise]
  · simp [planLevel_drivenPlan (.inr (.inl rfl)) hon hk, Pattern.rise, Nat.sub_add_cancel hon, hk]
  · exact planLevel_drivenPlan (.inr (.inr rfl)) hon hk
  · have hfull : p.rise L L = 0 := Nat.eq_zero_of_le_zero (by have := p.rise_add_le (Nat.le_refl L); omega)
    rw [drivenPlan_eq_window hp hL hon, drivenPlan_eq_window hp hL L.zero_le, drivenPlan_eq_window hp hL L.le_refl,
      hfull]
    exact ⟨windowPlan_head .., windowPlan_pairwise .., windowPlan_inside hL (p.rise_add_le hon),
      windowPlan_zero .., windowPlan_full hL⟩

end Sys2Proof.Machine

/-! ## Fault Log (R107) -/

namespace Sys2Proof.Machine

/-- The Fault Log that has room, 0 to 7 records: the record is stored (R107). -/
theorem FaultLog.append_stored {l : FaultLog} (h : l.records.length ≤ 7) (r : FaultRecord) :
    l.append r =
      { records := l.records ++ [{ r with number := l.next }], next := l.next + 1, dropped := l.dropped } :=
  if_pos (Nat.lt_succ_of_le h)

/-- The full Fault Log: the record is discarded and the dropped count saturates (R107). -/
theorem FaultLog.append_dropped {l : FaultLog} (h : 8 ≤ l.records.length) (r : FaultRecord) :
    l.append r = { l with dropped := min 255 (l.dropped + 1) } :=
  if_neg (Nat.not_lt.mpr h)

/-- A count that goes up to at most `n` is the saturated sum. -/
theorem min_succ_eq_ite (n k : Nat) : min n (k + 1) = if k < n then k + 1 else n := by
  split
  case isTrue hbelow => exact Nat.min_eq_right hbelow
  case isFalse hfull => exact Nat.min_eq_left (by omega)

/-- Settles O53: room and no room are the two branches of the append, and the appending event writes only the log. -/
theorem faultLogAppendStoresOrDrops : Obligations.FaultLogAppendStoresOrDrops := by
  refine ⟨fun l r => ⟨fun hroom => l.append_stored hroom r, fun hfull => ?_⟩, fun _ _ _ _ _ => rfl⟩
  rw [FaultLog.append_dropped hfull.ge, min_succ_eq_ite]

end Sys2Proof.Machine

/-! ## IDENTIFY (R161) -/

namespace Sys2Proof.Machine

/-- The identification fills fifteen bytes, the largest reply of the kind, whatever state the node reports. -/
theorem ownIdentify_data_length (s : State) (args : List Byte) :
    (ownIdentify s).data.length = largestData .identify args := rfl

/-- IDENTIFY is a request handed to the link with the code of its kind. -/
theorem exec_identify (r : Request) (s : State) :
    exec (.identify r) s = .next (s.feedRequest ReqKind.identify.code r.args r) := rfl

/-- Settles O13: the kind is not cached, so the owner's answer on the state itself is the reply, and the owner reads the
state without a change. -/
theorem identifyReplies : Obligations.IdentifyReplies := by
  refine ⟨fun s r htakes => ?reply, ?nodeStateCodes, ?safeCauseCodes, ?shadowStateCodes⟩
  case reply =>
    have howner : own .identify r.seq r.args s = ⟨s, .done, (ownIdentify s).data⟩ := rfl
    exact htakes.answers_uncached (exec_identify r s) rfl howner (ownIdentify_data_length s r.args).le
  case nodeStateCodes => rfl
  case safeCauseCodes => rfl
  case shadowStateCodes => rfl

end Sys2Proof.Machine

/-! ## What a step is made of

A predicate that the relay's, the parsers', the owners' and the timers' single operations keep is kept by every step.
Each invariant is then proved operation by operation. -/

namespace Sys2Proof.Machine

/-- What any operation of the relay does: the delay line keeps its 20 symbols, and the frame's parser stays, is dropped, or
is chosen for the present node state. -/
structure State.RelayMove (s : State) (r : Relay) : Prop where
  delay : s.relay.line.length = Config.forwardDelay → r.line.length = Config.forwardDelay
  parser : r.frame.parser = .none ∨ r.frame.parser = s.relay.frame.parser
    ∨ ∃ k, r.frame.parser = parserFor k s.node.state

/-- The operations that symbols at LINK_IN come down to keep `P`. -/
structure LinkKeeps (P : State → Prop) : Prop where
  relay : ∀ s r, s.RelayMove r → P s → P { s with relay := r }
  slots : ∀ s f, ((s.slots.staging.map Setpoint.chan).Nodup → ((f s.slots).staging.map Setpoint.chan).Nodup) →
    P s → P (s.withSlots f)
  roll : ∀ s f, (f s.roll).address = s.roll.address →
    (∀ a, (f s.roll).staged = some a → s.roll.staged = some a ∨ a ≠ 0 ∧ a ≠ 255) → P s → P (s.withRoll f)
  mgmt : ∀ s f, P s → P (s.withMgmt f)
  count : ∀ s id n, P s → P (s.countN id n)
  waiting : ∀ s l n, P s → P { s with pending := l, freeCount := n }
  goodCycle : ∀ s, P s → P s.goodCycle
  takeRecord : ∀ s r, s.node.state.live = true → P s → P (s.takeRecord r)
  adopt : ∀ s a, s.roll.staged = some a → P s → P (s.adopt a)
  decide : ∀ k seq args s, s.relay.frame.parser = .mgmt → P s → P (decideKind k seq args s).1.st

/-- The operations that the events of timers, pins and power come down to keep `P`. -/
structure EventsKeep (P : State → Prop) : Prop where
  pins : ∀ s p, P s → P { s with pins := p }
  elapse : ∀ s n, P s → P (s.elapse n)
  boundary : ∀ s, s.timer.running = true → P s → P s.boundary
  change : ∀ s c a, s.node.state = .run → (s.gen.get c).nextChange = some a → P s →
    P (State.drive
      { s with gen := s.gen.modify c fun g => g.change a s.timer.tick (channelDead s.bank.activeImage c) })
  deadEnd : ∀ s c, s.node.state = .run → P s →
    P (State.drive { s with gen := s.gen.modify c fun g => { g with dead := none } })
  trip : ∀ s i, (s.prot.inputs.get i).detecting s.node.state = true → P s → P (s.detectTrip i)
  pinLevel : ∀ s i (b : TripInput → Bool), P s →
    P { s with prot := { s.prot with inputs := s.prot.inputs.modify i fun x => { x with pin := b x } } }
  episodeEnd : ∀ s i (b : TripInput → Bool), P s →
    P { s with
      prot := { s.prot with
        inputs := s.prot.inputs.modify i fun x => { x with pin := b x, count := 0, episode := false } } }
  restore : ∀ s g, s.node.state.live = true → (s.prot.groups.get g).state = .timedOff →
    (s.prot.groups.get g).timer = 0 → P s → P (s.restoreExpiry g)
  gap : ∀ s, s.load.state = .receiving → P s → P s.gapExpiry
  check : ∀ s, s.load.state = .checking → P s → P s.completeCheck
  safe : ∀ s c f k, c ≠ .none → P s → P (s.enterSafe c f k)
  power : ∀ s b, P s → P (s.powerOnValues b)

/-! ### Operations of the relay -/

theorem State.RelayMove.same_parser {s : State} {r : Relay}
    (hd : s.relay.line.length = Config.forwardDelay → r.line.length = Config.forwardDelay)
    (hp : r.frame.parser = s.relay.frame.parser) : s.RelayMove r := ⟨hd, .inr (.inl hp)⟩

theorem State.RelayMove.forward (s : State) (x : Symbol) : s.RelayMove (s.relay.forward x) :=
  .same_parser (fun h => by simpa using h) (by simp)

theorem State.RelayMove.frame (s : State) {f : FrameCheck} (h : f.parser = s.relay.frame.parser) :
    s.RelayMove { s.relay with frame := f } :=
  .same_parser id h

/-- A trailer put in place of the last two symbols of the delay line keeps its length. -/
theorem putTrailer_length {l : List Symbol} (h : 2 ≤ l.length) (w : Word) : (putTrailer l w).length = l.length := by
  simp [putTrailer]
  omega

namespace LinkKeeps

variable {P : State → Prop} (h : LinkKeeps P) {s : State}
include h

theorem countOne (id : CounterId) (hs : P s) : P (s.count id) := h.count s id 1 hs

theorem forward (x : Symbol) (hs : P s) : P (s.forward x) := h.relay s _ (.forward s x) hs

theorem withFrame {f : FrameCheck → FrameCheck} (hf : (f s.relay.frame).parser = s.relay.frame.parser) (hs : P s) :
    P (s.withFrame f) := h.relay s _ (.frame s hf) hs

theorem markMalformed (hs : P s) : P s.markMalformed :=
  h.withFrame (f := fun f => { f with malformed := true }) rfl hs

/-! ### The Slot Parser -/

/-- A change of the walk that leaves the staging area. -/
theorem walkSlots {f : SlotParser → SlotParser} (hf : (f s.slots).staging = s.slots.staging) (hs : P s) :
    P (s.withSlots f) := h.slots s f (fun hn => by rwa [hf]) hs

theorem stopSlots (hs : P s) : P s.stopSlots := h.walkSlots rfl (h.markMalformed hs)

theorem beginSlot (id : Byte) (hs : P s) : P (s.beginSlot id) := by
  unfold State.beginSlot
  extract_lets s1
  have h1 : P s1 := h.walkSlots rfl hs
  split
  · exact h.countOne _ h1
  · split
    · exact h1
    · exact h.walkSlots rfl h1

theorem slotLength (len i bodyLen : Nat) (hs : P s) : P (s.slotLength len i bodyLen) := by
  unfold State.slotLength
  split
  · exact h.stopSlots hs
  · split
    · exact h.stopSlots hs
    · dsimp only
      split
      · exact h.countOne _ (h.walkSlots rfl hs)
      · exact h.walkSlots rfl hs

end LinkKeeps

/-- Staging a record leaves at most one record a channel (R44). -/
theorem stage_nodup {l : List Setpoint} (hl : (l.map Setpoint.chan).Nodup) (r : Setpoint) :
    ((stage l r).map Setpoint.chan).Nodup := by
  have hsub : (l.filter fun x => decide (x.chan ≠ r.chan)).map Setpoint.chan |>.Nodup :=
    hl.sublist (List.filter_sublist.map _)
  rw [stage, List.map_append, List.map_singleton, List.nodup_append]
  refine ⟨hsub, by simp, fun c hc d hd => ?_⟩
  obtain ⟨x, hx, rfl⟩ := List.mem_map.mp hc
  obtain rfl := List.mem_singleton.mp hd
  simpa using (List.mem_filter.mp hx).2

theorem foldl_stage_nodup (l : List Setpoint) {staged : List Setpoint} (hl : (staged.map Setpoint.chan).Nodup) :
    ((l.foldl stage staged).map Setpoint.chan).Nodup := by
  induction l generalizing staged with
  | nil => exact hl
  | cons r l ih => exact ih (stage_nodup hl r)

namespace LinkKeeps

variable {P : State → Prop} (h : LinkKeeps P) {s : State}
include h

theorem slotData (b : Byte) (hs : P s) : P (s.slotData b).1 := by
  unfold State.slotData
  split
  · exact h.stopSlots hs
  · extract_lets got last s1
    have h1 : P s1 := h.walkSlots rfl hs
    split
    · exact h1
    · exact h1
    · split
      · exact h.slots s1 (fun p => { p with staging := _ }) (fun hn => foldl_stage_nodup _ hn) h1
      · exact h1

theorem walk (b : Byte) (i bodyLen : Nat) (hs : P s) : P (s.walk b i bodyLen).1 := by
  unfold State.walk
  split
  · split_ifs <;> (dsimp only; exact h.walkSlots rfl hs)
  · dsimp only
    split
    · exact h.stopSlots (h.beginSlot b hs)
    · exact h.beginSlot b hs
  · exact h.slotLength _ _ _ hs
  · exact h.slotData b hs
  · exact hs
  · exact hs
  · exact hs

theorem slotByte (b : Byte) (i bodyLen : Nat) (hs : P s) : P (s.slotByte b i bodyLen).1 := by
  unfold State.slotByte
  dsimp only
  split
  · exact h.stopSlots (h.walk b i bodyLen hs)
  · exact h.walk b i bodyLen hs

theorem takeArrival (l : List Setpoint) (hs : P s) : P (s.takeArrival l) := by
  unfold State.takeArrival
  split
  case isFalse => exact hs
  case isTrue hlive =>
    induction l generalizing s with
    | nil => exact hs
    | cons r l ih => exact ih (h.takeRecord s r hlive hs) (by rwa [s.takeRecord_node])

theorem endSlots (good : Bool) (hs : P s) : P (s.endSlots good) := by
  have h1 : P (s.withSlots fun p => { p with walker := .idle, staging := [], cur := none }) :=
    h.slots s _ (fun _ => List.nodup_nil) hs
  cases good
  · exact h1
  · exact h.takeArrival _ h1

/-! ### The Roll Call Handler -/

theorem rollCapacity (n : Byte) (c bodyLen : Nat) (hs : P s) : P (s.rollCapacity n c bodyLen) := by
  unfold State.rollCapacity
  split_ifs
  · exact h.markMalformed hs
  · exact h.roll s _ rfl (fun _ => .inl) hs
  · exact hs

theorem rollByte (b : Byte) (i bodyLen : Nat) (hs : P s) : P (s.rollByte b i bodyLen).1 := by
  unfold State.rollByte
  split
  · split
    · exact hs
    · rename_i hb
      dsimp only
      refine h.roll s _ rfl (fun a ha => .inr ?_) hs
      obtain rfl : b = a := Option.some.inj ha
      exact not_or.mp hb
  · split
    · exact hs
    · split_ifs
      · exact h.roll s (fun r => { r with base := b }) rfl (fun _ => .inl) hs
      · exact h.rollCapacity _ _ _ hs
      · exact hs

theorem endRoll (good : Bool) (hs : P s) : P (s.endRoll good) := by
  refine h.roll _ _ rfl (fun a ha => absurd ha (by simp)) ?_
  cases good with
  | false => exact hs
  | true =>
    cases hst : s.roll.staged with
    | none => exact hs
    | some a => exact h.adopt s a hst hs

/-! ### The Management Engine -/

theorem replyBare (st : Status) (capacity : Nat) (hs : P s) : P (s.replyBare st capacity) := by
  unfold State.replyBare
  split
  · exact h.mgmt s _ hs
  · exact hs

theorem decideRequest (capacity : Nat) (hp : s.relay.frame.parser = .mgmt) (hs : P s) :
    P (s.decideRequest capacity) := by
  have haddressed (kind seq : Byte) (args : List Byte) : P (s.decideAddressed kind seq args capacity) := by
    unfold State.decideAddressed
    split
    · exact h.replyBare _ _ hs
    · split
      · exact h.replyBare _ _ hs
      · exact h.mgmt _ _ (h.decide _ _ _ s hp hs)
  have hbroadcast (kind seq : Byte) (args : List Byte) : P (s.decideBroadcast kind seq args capacity) := by
    unfold State.decideBroadcast
    split
    · exact hs
    · split
      · exact h.mgmt s _ hs
      · split
        · exact h.mgmt _ _ (h.decide _ _ _ s hp hs)
        · exact h.mgmt s _ hs
  unfold State.decideRequest
  dsimp only
  split
  · exact hs
  · split_ifs
    · exact hs
    · exact haddressed _ _ _
    · exact h.countOne _ hs
  · split_ifs
    · exact hs
    · exact hbroadcast _ _ _
    · exact h.countOne _ hs

theorem stopMgmt (hs : P s) : P s.stopMgmt := h.mgmt _ _ (h.markMalformed hs)

theorem mgmtByte (b : Byte) (bodyLen : Nat) (hp : s.relay.frame.parser = .mgmt) (hs : P s) :
    P (s.mgmtByte b bodyLen).1 := by
  have hcapacity (r : Nat) : P (s.capacityByte r bodyLen) := by
    unfold State.capacityByte
    split
    · exact h.stopMgmt hs
    · exact h.decideRequest _ hp (h.mgmt s _ hs)
  unfold State.mgmtByte
  split
  case h_4 =>
    dsimp only
    split
    · exact h.stopMgmt hs
    · exact h.mgmt s _ hs
  case h_7 => exact hcapacity _
  case h_9 => exact hs
  case h_10 => exact hs
  all_goals
    dsimp only
    exact h.mgmt s _ hs

/-! ### Symbols -/

theorem choose (kind : Byte) (hs : P s) : P (s.choose kind) := by
  have h1 : P (s.withFrame fun f => { f with parser := parserFor kind s.node.state }) :=
    h.relay s _ ⟨id, .inr (.inr ⟨kind, rfl⟩)⟩ hs
  unfold State.choose
  dsimp only
  split
  · exact h1
  · exact h.walkSlots rfl h1
  · exact h.mgmt _ _ h1
  · exact h.roll _ _ rfl (fun a ha => absurd ha (by simp [RollCall.begin])) h1

theorem parse (b : Byte) (i : Nat) (hs : P s) : P (s.parse b i).1 := by
  unfold State.parse
  split
  · exact hs
  · exact h.slotByte _ _ _ hs
  · exact h.mgmtByte _ _ ‹_› hs
  · exact h.rollByte _ _ _ hs

theorem receiveByte (b : Byte) (hs : P s) : P (s.receiveByte b) := by
  have h1 : P (s.withFrame fun f => f.receive b) := h.withFrame rfl hs
  unfold State.receiveByte
  extract_lets p k s1 r
  refine h.forward _ (h.withFrame rfl ?_)
  show P (if p = 0 then (s1.choose b, b)
    else if 3 ≤ p ∧ k < 3 + s1.relay.frame.bodyLen then s1.parse b (k - 3) else (s1, b)).1
  split_ifs
  · exact h.choose b h1
  · exact h.parse b _ h1
  · exact h1

theorem endParser (p : Parser) (good : Bool) (hs : P s) : P (s.endParser p good) := by
  cases p
  · exact hs
  · exact h.endSlots good hs
  · exact hs
  · exact h.endRoll good hs

theorem startFrame (hs : P s) : P s.startFrame :=
  h.forward _ (h.relay s { s.relay with rx := .inFrame, frame := .clear } ⟨id, .inl rfl⟩ hs)

theorem endFrame (hs : P s) : P s.endFrame := by
  unfold State.endFrame
  extract_lets f s1 line s2 s3
  have h1 : P s1 := h.countOne _ hs
  have h2 : P s2 := by
    refine h.relay s1 { s1.relay with rx := .idle, frame := .clear, line := _ } ⟨fun hd => ?_, .inl rfl⟩ h1
    dsimp only
    split
    · rw [putTrailer_length (by rw [hd]; decide), hd]
    · exact hd
  have h3 : P s3 := h.endParser _ _ h2
  refine h.forward _ ?_
  split
  · exact h.goodCycle s3 h3
  · exact h3

theorem cutFrame (hs : P s) : P s.cutFrame :=
  h.endParser _ _ (h.relay _ { s.relay with rx := .idle, frame := .clear } ⟨id, .inl rfl⟩ (h.countOne _ hs))

theorem relaySymbol (x : Symbol) (hs : P s) : P (s.relaySymbol x) := by
  unfold State.relaySymbol
  split
  · cases x
    case frameStart => exact h.startFrame hs
    case invalid => exact h.forward _ (h.countOne _ hs)
    all_goals exact h.forward _ hs
  · cases x
    case byte b => exact h.receiveByte b hs
    case frameEnd => exact h.endFrame hs
    case frameStart => exact h.startFrame (h.cutFrame hs)
    case idle => exact h.forward _ (h.cutFrame hs)
    case invalid => exact h.receiveByte 0 (h.withFrame rfl (h.countOne _ hs))

theorem receive (x : Symbol) (hs : P s) : P (s.receive x) := by
  unfold State.receive
  split_ifs
  · exact h.waiting _ s.pending (s.freeCount + 1)
      (h.relay s { s.relay with sent := s.relay.sent ++ [Config.unpoweredSymbol s.freeCount] }
        (.same_parser id rfl) hs)
  · exact h.forward x hs
  · exact h.relaySymbol x hs

/-- What the single operations keep, any run of symbols at LINK_IN keeps. -/
theorem feed (l : List Symbol) (hs : P s) : P (s.feed l) := by
  have h1 : P { s with relay := { s.relay with sent := [] } } := h.relay s _ (.same_parser id rfl) hs
  unfold State.feed
  revert h1
  generalize ({ s with relay := { s.relay with sent := [] } } : State) = t
  intro h1
  induction l generalizing t with
  | nil => exact h1
  | cons x l ih => exact ih _ (h.receive x h1)

end LinkKeeps

/-! ### Commands -/

section
variable {P : State → Prop} (hl : LinkKeeps P) (he : EventsKeep P) {s t : State}
include hl he

theorem exec_powerOn_keeps (hs : P s) (ht : execPowerOn s = .next t) : P t := by
  obtain rfl : _ = t := Host.Outcome.next.inj ht
  exact he.power _ _ (he.pins _ { s.pins with supply := true }
    (hl.relay s { s.relay with line := Relay.powerOn.line, sent := [] } (.same_parser (fun _ => rfl) rfl) hs))

theorem exec_resetNReleased_keeps (hs : P s) (ht : execResetNReleased s = .next t) : P t := by
  obtain rfl : _ = t := Host.Outcome.next.inj ht
  split
  · exact hs
  · exact he.pins _ { s.pins with resetN := true }
      (hl.relay s { s.relay with bypass := false } (.same_parser id rfl) hs)

omit hl in
theorem exec_plannedChange_keeps (c : Fin 6) (hs : P s) (ht : execPlannedChange c s = .next t) : P t := by
  obtain rfl : _ = t := Host.Outcome.next.inj ht
  split
  · exact hs
  case h_2 a ha =>
    split
    case isFalse => exact hs
    case isTrue hrun =>
      refine he.change _ c a (by simpa using hrun) ?_ (he.elapse s _ hs)
      rw [ChannelGen.nextChange, State.elapse_gen]
      exact ha

omit hl in
theorem exec_deadTimeEnd_keeps (c : Fin 6) (hs : P s) (ht : execDeadTimeEnd c s = .next t) : P t := by
  obtain rfl : _ = t := Host.Outcome.next.inj ht
  split
  · exact hs
  case h_2 r hr =>
    dsimp only
    split
    case isFalse => exact hs
    case isTrue hdue =>
      refine he.deadEnd _ c ?_ (he.elapse s _ hs)
      simp only [State.deadEndDue, Bool.and_eq_true, decide_eq_true_eq] at hdue
      exact hdue.1.1.1

omit hl in
theorem exec_trip_keeps (i : Fin 4) (hs : P s) (ht : execTrip i s = .next t) : P t := by
  obtain rfl : _ = t := Host.Outcome.next.inj ht
  split
  case isFalse => exact hs
  case isTrue hcan =>
    refine he.trip _ i ?_ (he.elapse s _ hs)
    simp only [TripInput.canTrip, Bool.and_eq_true] at hcan
    simpa only [TripInput.detecting, (s.elapse_input _ i).1, State.elapse_node] using hcan.1.1

end

/-- A TIMED_OFF group in ARMED and RUN after ticks: its restore timer counts down (R95). -/
theorem State.elapse_group_timedOff (s : State) (n : Nat) (g : Fin 2) (hlive : s.node.state.live = true)
    (hoff : (s.prot.groups.get g).state = .timedOff) :
    (s.elapse n).prot.groups.get g = { s.prot.groups.get g with timer := (s.prot.groups.get g).timer - n } := by
  unfold State.elapse
  split
  · rename_i hn
    simp [hn]
  · simp [ProtGroup.elapse, hlive, hoff]

/-- The load job after ticks keeps its state (R169, R171). -/
@[simp] theorem State.elapse_load_state (s : State) (n : Nat) : (s.elapse n).load.state = s.load.state := by
  unfold State.elapse
  split
  · rfl
  · dsimp only
    unfold LoadJob.elapse
    split <;> rfl

section
variable {P : State → Prop} (hl : LinkKeeps P) (he : EventsKeep P) {s t : State}
include hl he

omit hl in
theorem exec_restoreTimerExpiry_keeps (g : Fin 2) (hs : P s) (ht : execRestoreTimerExpiry g s = .next t) : P t := by
  obtain rfl : _ = t := Host.Outcome.next.inj ht
  split
  case isFalse => exact hs
  case isTrue hoff =>
    obtain ⟨hlive, hstate⟩ := hoff
    have hgroup := s.elapse_group_timedOff (s.prot.groups.get g).timer g hlive hstate
    exact he.restore _ g (by simpa using hlive) (by rw [hgroup]; exact hstate) (by rw [hgroup]; exact Nat.sub_self _)
      (he.elapse s _ hs)

/-- What the single operations keep, every command keeps. -/
theorem exec_keeps (i : Instr) (hs : P s) (ht : exec i s = .next t) : P t := by
  cases i
  case powerOn => exact exec_powerOn_keeps hl he hs ht
  case resetNReleased => exact exec_resetNReleased_keeps hl he hs ht
  case plannedChange c => exact exec_plannedChange_keeps he c hs ht
  case deadTimeEnd c => exact exec_deadTimeEnd_keeps he c hs ht
  case trip i => exact exec_trip_keeps he i hs ht
  case restoreTimerExpiry g => exact exec_restoreTimerExpiry_keeps he g hs ht
  all_goals obtain rfl : _ = t := Host.Outcome.next.inj ht
  case resetNAsserted => exact he.power _ _ (he.pins _ _ hs)
  case powerLoss => exact he.power _ _ (he.pins _ _ hs)
  case periodBoundary =>
    split
    · exact he.boundary _ (by simpa using ‹_›) (he.elapse s _ hs)
    · exact hs
  case drvOkFall =>
    split
    · exact he.safe _ _ _ _ (by decide) (he.pins _ _ hs)
    · exact hs
  case drvOkRise => exact he.pins _ _ hs
  case assertionEpisodeEnd i => exact he.episodeEnd s i _ hs
  case tripInputAssertion i => exact he.pinLevel s i _ hs
  case gapTimerExpiry =>
    split
    · exact he.gap _ (by simpa using ‹_›) (he.elapse s _ hs)
    · exact hs
  case checkCompletion =>
    split
    · exact he.check _ (by simpa using ‹_›) (he.elapse s _ hs)
    · exact hs
  all_goals exact hl.feed _ hs

/-- What the single operations keep, every step keeps. -/
theorem step_keeps (hs : P s) (ht : step s = .next t) : P t := by
  unfold step at ht
  split at ht
  · obtain rfl : _ = t := Host.Outcome.next.inj ht
    obtain ⟨-, hidle⟩ | ⟨e, n, -, hidle⟩ := s.idle_cases
    · exact hidle ▸ he.elapse s 1 hs
    · exact hidle ▸ hl.waiting s [e] n hs
  · exact exec_keeps hl he _ (hl.waiting s _ s.freeCount hs) ht

end

end Sys2Proof.Machine

/-! ## What an owner can do

One constructor for each way in which a request changes its owner's block, with the tests that stand before it. -/

namespace Sys2Proof.Machine

/-- A request of sequence `seq`, decided by its owner on the state `s`, leaves the state `t` (R150 test 5). -/
inductive Effect (seq : Byte) (s : State) : State → Prop
  | same : Effect seq s s
  | write (a : Nat) (l : List Byte) : s.bank.shadow = .editable ∨ s.bank.shadow = .broken →
      Effect seq s { s with bank := s.bank.setShadow (s.bank.shadowImage.writeAll a l) }
  | copy : s.bank.shadow = .editable ∨ s.bank.shadow = .broken → Effect seq s { s with bank := s.bank.copyActive }
  | input (i : Fin 4) (e : TripEntry) : s.node.state = .config → e.blanking.toNat ≤ 1023 → e.delay ≠ 0 →
      Effect seq s { s with prot := { s.prot with inputs := s.prot.inputs.modify i fun x => { x with entry := e } } }
  | group (g : Fin 2) (e : GroupEntry) : s.node.state = .config → e.w ≠ 0 →
      Effect seq s { s with prot := { s.prot with groups := s.prot.groups.modify g fun x => { x with entry := e } } }
  | comp (w : Word) : Effect seq s { s with mgmt := { s.mgmt with comp := w } }
  | swap : s.node.state = .config → s.bank.shadow = .editable → validate s.bank.shadowImage = none →
      Effect seq s { s with bank := s.bank.swap }
  | freeze (p : Word) : s.node.state.live = true → s.bank.commit = none →
      s.bank.shadow = .editable ∨ s.bank.shadow = .frozen → validate s.bank.shadowImage = none →
      Effect seq s { s with bank := { s.bank with shadow := .frozen, commit := some ⟨p, seq⟩ } }
  | arm (n0 : Word) (t : Nat) (start : Word) : s.node.state = .config → s.bank.cond = .valid → t < s.activeP →
      Effect seq s (s.arm n0 t start)
  | align (n : Word) (t : Nat) : s.node.state = .armed → t < s.activeP →
      Effect seq s
        { s.flush with
          timer := { s.timer with tick := t, len := s.activeP, period := n, trim := none, wrapDue := false } }
  | trim (d : Int) : s.node.state.live = true →
      Effect seq s { s with timer := { s.timer with trim := some d } }
  | stop : s.node.state.live = true → Effect seq s (s.enterSafe .stop none none)
  | clear : s.node.state = .safe → Effect seq s s.toConfig.flush
  | restart : Effect seq s s.restart
  | enable (g : Fin 2) : s.node.state ≠ .config → (s.prot.groups.get g).state = .latched →
      Effect seq s (s.enableGroup g)
  | pop : Effect seq s { s with log := s.log.pop }
  | zero : Effect seq s { s with counters := .zero }
  | loadBegin (first count : Nat) (sum : Word) : s.load.state = .idle → s.bank.shadow ≠ .frozen → first + count ≤ 7 →
      Effect seq s
        { s with
          load :=
            { state := .receiving, first := first, count := count, next := first, checksum := sum, written := 0,
              prior := s.bank.shadow, gap := Config.gapTicks, checkSeq := none, checkLeft := 0 }
          bank := { s.bank with shadow := .loading } }
  | loadData (a : Nat) (l : List Byte) : s.load.state = .receiving → s.load.next < s.load.first + s.load.count →
      Effect seq s
        { s with
          bank := s.bank.setShadow (s.bank.shadowImage.writeAll a l)
          load := { s.load with next := s.load.next + 1, written := s.load.written + 1, gap := Config.gapTicks } }
  | loadEnd : s.load.state = .receiving →
      Effect seq s
        { s with
          load := { s.load with state := .checking, gap := 0, checkSeq := some seq, checkLeft := Config.checkTicks }
          bank := { s.bank with shadow := .checking } }
  | cancel : s.load.state = .receiving → Effect seq s s.endJob
  | abort : s.load.state = .receiving → Effect seq s (s.endJob.count .loadAborts)

/-- The fields a TRIP INPUT entry can have when eight bytes spell it (R82). -/
theorem TripEntry.decode_range {l : List Byte} {e : TripEntry} (h : TripEntry.decode l = some e) :
    e.blanking.toNat ≤ 1023 ∧ e.delay ≠ 0 := by
  unfold TripEntry.decode at h
  split at h
  · split at h
    · rename_i hrange
      obtain rfl := Option.some.inj h
      refine ⟨hrange.1, fun hzero => ?_⟩
      have hword : wordAt l 6 = 0 := hzero
      simp [hword] at hrange
    · cases h
  · cases h

theorem GroupEntry.decode_window {l : List Byte} {e : GroupEntry} (h : GroupEntry.decode l = some e) : e.w ≠ 0 := by
  unfold GroupEntry.decode at h
  split at h
  · cases h
  · obtain rfl := Option.some.inj h
    assumption

section
variable (seq : Byte) (args : List Byte) (s : State)

theorem ownReadEntry_st : (ownReadEntry args s).st = s := by
  simp only [ownReadEntry, readBank]
  (repeat' split) <;> rfl

theorem writeBank_effect (t : Table) (index : Nat) (role : Byte) (entry : List Byte) :
    Effect seq s (writeBank s t index role entry).st := by
  unfold writeBank
  split_ifs
  · exact .same
  · exact .same
  · split
    · exact .write _ _ (.inl ‹_›)
    · exact .write _ _ (.inr ‹_›)
    all_goals exact .same

theorem ownWriteEntry_effect : Effect seq s (ownWriteEntry args s).st := by
  unfold ownWriteEntry
  dsimp only
  split
  · exact .same
  · split
    · exact .same
    · split
      · exact writeBank_effect seq s _ _ _ _
      · exact writeBank_effect seq s _ _ _ _
      · exact writeBank_effect seq s _ _ _ _
      · unfold writeTripInput
        split
        · exact .same
        · split
          · obtain ⟨hblank, hdelay⟩ := TripEntry.decode_range ‹_›
            exact .input _ _ (not_not.mp ‹_›) hblank hdelay
          · exact .same
      · unfold writeGroup
        split
        · exact .same
        · split
          · exact .group _ _ (not_not.mp ‹_›) (GroupEntry.decode_window ‹_›)
          · exact .same
      · unfold writeNode
        split_ifs
        · exact .same
        · exact .same
        · exact .comp _

theorem ownCopyActive_effect : Effect seq s (ownCopyActive s).st := by
  unfold ownCopyActive
  split
  · exact .copy (.inl ‹_›)
  · exact .copy (.inr ‹_›)
  all_goals exact .same

theorem commitConfig_effect (h : s.node.state = .config) : Effect seq s (commitConfig s).st := by
  unfold commitConfig
  split
  · split
    · exact .same
    · exact .swap h ‹_› ‹_›
  all_goals exact .same

theorem commitLive_effect (h : s.node.state.live = true) : Effect seq s (commitLive seq args s).st := by
  have hshadow (h1 : ¬ (s.bank.shadow = .loading ∨ s.bank.shadow = .checking)) (h2 : ¬ s.bank.shadow = .broken) :
      s.bank.shadow = .editable ∨ s.bank.shadow = .frozen := by
    cases hs : s.bank.shadow <;> simp_all
  unfold commitLive
  split_ifs with h1 h2 h3 h4
  · exact .same
  · exact .same
  · exact .same
  · exact .same
  · split
    · exact .same
    · exact .freeze _ h (by simpa using h1) (hshadow h2 h3) ‹_›

theorem ownCommit_effect : Effect seq s (ownCommit seq args s).st := by
  unfold ownCommit
  split
  · exact commitConfig_effect seq s ‹_›
  · exact commitLive_effect seq args s (by rw [‹s.node.state = _›]; rfl)
  · exact commitLive_effect seq args s (by rw [‹s.node.state = _›]; rfl)
  · exact .same
  · exact .same

theorem ownArm_effect : Effect seq s (ownArm args s).st := by
  unfold ownArm
  extract_lets n0 tick start
  split_ifs with h1 h2 h3 h4 h5
  · exact .same
  · exact .same
  · exact .same
  · exact .same
  · exact .same
  · have hcond : s.bank.cond = .valid := by cases hc : s.bank.cond <;> simp_all
    exact .arm _ _ _ (not_not.mp h1) hcond (Nat.lt_of_not_le h4)

theorem ownAlign_effect : Effect seq s (ownAlign args s).st := by
  unfold ownAlign
  extract_lets n t
  split_ifs with h1 h2 h3 h4
  · exact .same
  · exact .same
  · exact .same
  · exact .same
  · exact .align _ _ (not_not.mp h1) (Nat.lt_of_not_le h3)

theorem ownTrim_effect : Effect seq s (ownTrim args s).st := by
  unfold ownTrim
  extract_lets delta
  split_ifs with h1 h2
  · exact .same
  · exact .same
  · exact .trim _ (by simpa using h1)
  · exact .trim _ (by simpa using h1)

theorem ownStop_effect : Effect seq s (ownStop s).st := by
  unfold ownStop
  split_ifs with h1 h2
  · exact .stop h1
  · exact .same
  · exact .same

theorem ownClear_effect : Effect seq s (ownClear s).st := by
  unfold ownClear
  split_ifs with h
  · exact .clear h
  · exact .same

theorem ownTripAck_effect : Effect seq s (ownTripAck args s).st := by
  unfold ownTripAck
  split
  · exact .same
  · split
    · exact .same
    · split_ifs with hlatched hasserted
      · exact .same
      · exact .enable _ ‹_› hlatched
      · exact .same

theorem ownFaultPop_effect : Effect seq s (ownFaultPop args s).st := by
  unfold ownFaultPop
  split
  · exact .same
  · split_ifs
    · exact .pop
    · exact .same

theorem ownLoadBegin_effect : Effect seq s (ownLoadBegin args s).st := by
  unfold ownLoadBegin
  extract_lets first count
  split_ifs with h1 h2 h3
  · exact .same
  · exact .same
  · exact .same
  · exact .loadBegin _ _ _ (not_not.mp h1) h2 (by omega)

theorem ownLoadData_effect : Effect seq s (ownLoadData args s).st := by
  unfold ownLoadData
  extract_lets index
  split
  · exact .same
  · exact .same
  · split_ifs with h1 h2
    · exact .loadData _ _ ‹_› h1.2
    · exact .same
    · exact .abort ‹_›

theorem ownLoadEnd_effect : Effect seq s (ownLoadEnd seq s).st := by
  unfold ownLoadEnd
  split
  · exact .same
  · exact .same
  · split_ifs
    · exact .same
    · exact .loadEnd ‹_›

theorem ownLoadCancel_effect : Effect seq s (ownLoadCancel s).st := by
  unfold ownLoadCancel
  split
  · exact .same
  · exact .cancel ‹_›
  · exact .same

/-- Everything the owner of a request can do to the state. -/
theorem own_effect (k : ReqKind) : Effect seq s (own k seq args s).st := by
  cases k
  case identify => exact .same
  case readEntry =>
    rw [own, ownReadEntry_st]
    exact .same
  case writeEntry => exact ownWriteEntry_effect seq args s
  case copyActive => exact ownCopyActive_effect seq s
  case commit => exact ownCommit_effect seq args s
  case arm => exact ownArm_effect seq args s
  case align => exact ownAlign_effect seq args s
  case trim => exact ownTrim_effect seq args s
  case stop => exact ownStop_effect seq s
  case clear => exact ownClear_effect seq s
  case restart => exact .restart
  case tripAck => exact ownTripAck_effect seq args s
  case faultRead => exact .same
  case faultPop => exact ownFaultPop_effect seq args s
  case countersRead => exact .same
  case countersClear => exact .zero
  case loadBegin => exact ownLoadBegin_effect seq args s
  case loadData => exact ownLoadData_effect seq args s
  case loadEnd => exact ownLoadEnd_effect seq s
  case loadCancel => exact ownLoadCancel_effect seq s

theorem decideNew_effect (k : ReqKind) : Effect seq s (decideNew k seq args s).st := by
  unfold decideNew
  split
  · exact own_effect seq args s k
  · exact .same

end

/-- A predicate that does not speak of the engine and that every owner keeps is kept by a decision (R150, R155, R156). -/
theorem decideKind_keeps {P : State → Prop} (hmgmt : ∀ s m, P s → P { s with mgmt := m })
    (hcount : ∀ s id n, P s → P (s.countN id n)) (heffect : ∀ seq s t, Effect seq s t → P s → P t)
    (k : ReqKind) (seq : Byte) (args : List Byte) (s : State) (hs : P s) : P (decideKind k seq args s).1.st := by
  unfold decideKind
  split
  · split
    · exact hcount s _ 1 hs
    · exact hmgmt _ _ (heffect seq _ _ (decideNew_effect seq args _ k) (hmgmt s _ hs))
  · exact heffect seq _ _ (decideNew_effect seq args s k) hs

/-- No owner touches the relay. -/
theorem Effect.relay_eq {seq : Byte} {s t : State} (h : Effect seq s t) : t.relay = s.relay := by
  cases h
  case restart =>
    unfold State.restart State.endJobForRestart
    dsimp only
    split <;> simp
  case enable => simp [State.enableGroup]
  all_goals simp

end Sys2Proof.Machine

/-! ## What a boundary is made of -/

namespace Sys2Proof.Machine

/-- The single operations of the blocks that act by period keep `P` (R30, R33, R35, R52, R64, R94). -/
structure WorkKeeps (P : State → Prop) : Prop where
  gen : ∀ s g, P s → P { s with gen := g }
  loss : ∀ s n, P s → P { s with node := { s.node with loss := n } }
  start : ∀ s, P s → P s.startEntry
  groups : ∀ s, s.node.state.live = true → P s → P { s with prot := s.prot.boundary }
  queue : ∀ s q, P s → P { s with queue := q }
  count : ∀ s id n, P s → P (s.countN id n)
  safe : ∀ s c f k, c ≠ .none → P s → P (s.enterSafe c f k)
  drive : ∀ s, P s → P s.drive

/-- The single operations of a period boundary keep `P`, the swap and the timer's wrap among them (R16, R23). -/
structure BoundaryKeeps (P : State → Prop) : Prop extends WorkKeeps P where
  swap : ∀ s p, P s → P (s.swapAt p)
  wrap : ∀ s, P s → P s.wrapTimer

/-- The start period changes ARMED to RUN only (R30). -/
theorem State.startEntry_live (s : State) : s.startEntry.node.state.live = s.node.state.live := by
  unfold State.startEntry
  split
  · rename_i h
    simp [h.1, NodeState.live]
  · rfl

theorem WorkKeeps.boundaryWork {P : State → Prop} (h : WorkKeeps P) {s : State} (hs : P s) : P s.boundaryWork := by
  have hloss (s : State) (hs : P s) : P s.lossTest := by
    unfold State.lossTest
    dsimp only
    split
    · exact h.safe _ _ _ _ (by decide) (h.loss s _ hs)
    · exact h.loss s _ hs
  have hrun (s : State) (hs : P s) : P s.runBoundary := by
    have h1 : P (State.countN { s with queue := s.selections.map Selection.q } .holds (heldCount s.selections)) :=
      h.count _ _ _ (h.queue s _ hs)
    unfold State.runBoundary
    dsimp only
    split
    · exact h.safe _ _ _ _ (by decide) h1
    · exact h.drive _ (h.count _ _ _ (h.gen _ _ h1))
  unfold State.boundaryWork
  dsimp only
  split
  case isFalse => exact hloss s hs
  case isTrue hlive =>
    have h2 := h.groups _ (by rwa [State.startEntry_live]) (h.start _ (hloss s hs))
    split
    · exact hrun _ h2
    · exact h.queue _ _ h2

theorem BoundaryKeeps.boundary {P : State → Prop} (h : BoundaryKeeps P) {s : State} (hs : P s) : P s.boundary := by
  have hfinish : P s.finishPlans := by
    unfold State.finishPlans
    split
    · exact h.gen s _ hs
    · exact hs
  unfold State.boundary
  dsimp only
  have h1 := h.wrap _ (h.swap _ (s.timer.period + 1) hfinish)
  split
  · exact h.toWorkKeeps.boundaryWork h1
  · exact h1

/-! ## Predicates that speak neither of gates nor of groups -/

/-- `P` speaks of no value of the Pattern Generator and of the Protection Unit. -/
structure GatesFree (P : State → Prop) : Prop where
  gen : ∀ s g, P s → P { s with gen := g }
  prot : ∀ s p, P s → P { s with prot := p }

namespace GatesFree

variable {P : State → Prop} (h : GatesFree P) {s : State}
include h

theorem drive (hs : P s) : P s.drive := h.prot { s with gen := s.drive.gen } s.drive.prot (h.gen s s.drive.gen hs)

theorem modifyGroup (g : Fin 2) (f : ProtGroup → ProtGroup) (hs : P s) : P (s.modifyGroup g f) := h.prot s _ hs

theorem enableGroup (g : Fin 2) (hs : P s) : P (s.enableGroup g) := by
  have h1 : P (s.modifyGroup g fun x => { x with state := .enabled }) := h.modifyGroup _ _ hs
  refine h.drive ?_
  unfold State.holdUntilEdge
  split
  · exact h.gen _ _ h1
  · exact h1

theorem restoreExpiry (g : Fin 2) (hs : P s) : P (s.restoreExpiry g) := by
  unfold State.restoreExpiry
  split
  · exact h.modifyGroup _ _ hs
  · exact h.enableGroup g hs

theorem detectTrip (hcount : ∀ s id n, P s → P (s.countN id n)) (hrecord : ∀ s c g i k, P s → P (s.record c g i k))
    (i : Fin 4) (hs : P s) : P (s.detectTrip i) := by
  have hnote (s : State) (i : Fin 4) (g : Fin 2) (a : TripAction) (hs : P s) : P (s.noteTrip i g a) := by
    cases a
    · exact hcount s _ 1 hs
    · exact hrecord s _ _ _ _ hs
    · exact hrecord s _ _ _ _ hs
  have htrip (s : State) (i : Fin 4) (g : Fin 2) (a : TripAction) (delay : Nat) (hs : P s) :
      P (s.tripGroup i g a delay) := by
    have h1 := h.modifyGroup g (fun x => x.trip a delay) (hnote s i g a hs)
    refine h.drive ?_
    split
    · exact h.modifyGroup _ _ (hrecord _ _ _ _ _ h1)
    · exact h1
  unfold State.detectTrip
  dsimp only
  split
  · exact htrip _ _ _ _ _ (h.prot s _ hs)
  · exact h.prot s _ hs

end GatesFree

/-! ## The invariant of the images and the delay line (R1, R117; log 1) -/

/-- The invariant speaks of the two images and the length of the delay line alone. -/
theorem State.StorageOk.congr {s t : State} (h : s.StorageOk) (ha : t.bank.imgA = s.bank.imgA)
    (hb : t.bank.imgB = s.bank.imgB) (hd : t.relay.line.length = s.relay.line.length) : t.StorageOk :=
  ⟨ha ▸ h.imgA, hb ▸ h.imgB, hd.trans h.delay⟩

theorem storage_gatesFree : GatesFree State.StorageOk where
  gen _ _ h := h.congr rfl rfl rfl
  prot _ _ h := h.congr rfl rfl rfl

theorem State.StorageOk.shadow_wf {s : State} (h : s.StorageOk) : s.bank.shadowImage.wf = true := by
  unfold BankStore.shadowImage
  split
  · exact h.imgB
  · exact h.imgA

theorem State.StorageOk.active_wf {s : State} (h : s.StorageOk) : s.bank.activeImage.wf = true := by
  unfold BankStore.activeImage
  split
  · exact h.imgA
  · exact h.imgB

/-- A shadow image in canonical form may stand in the bank whatever else of it changes. -/
theorem State.StorageOk.setShadow {s t : State} (h : s.StorageOk) {m : Memory} (hm : m.wf = true)
    (ha : t.bank.imgA = (s.bank.setShadow m).imgA) (hb : t.bank.imgB = (s.bank.setShadow m).imgB)
    (hd : t.relay = s.relay) : t.StorageOk := by
  obtain ⟨hA, hB⟩ := s.bank.setShadow_wf m h.imgA h.imgB hm
  exact ⟨ha ▸ hA, hb ▸ hB, hd ▸ h.delay⟩

/-- A commit cancelled and a swap keep both images (R1, R19). -/
theorem State.cancelCommit_images (s : State) :
    s.cancelCommit.bank.imgA = s.bank.imgA ∧ s.cancelCommit.bank.imgB = s.bank.imgB := by
  unfold State.cancelCommit
  split <;> exact ⟨rfl, rfl⟩

theorem State.swapAt_images (s : State) (p : Word) :
    (s.swapAt p).bank.imgA = s.bank.imgA ∧ (s.swapAt p).bank.imgB = s.bank.imgB := by
  unfold State.swapAt
  split
  · exact ⟨rfl, rfl⟩
  · split <;> exact ⟨rfl, rfl⟩

theorem State.enterSafe_images (s : State) (c : SafeCause) (f : Option FaultCause) (k : Option (Fin 6)) :
    (s.enterSafe c f k).bank.imgA = s.bank.imgA ∧ (s.enterSafe c f k).bank.imgB = s.bank.imgB := by
  by_cases hlive : s.node.state.live = true
  · rw [s.enterSafe_live c f k hlive]
    exact ⟨rfl, rfl⟩
  · rw [s.enterSafe_idle c f k (by simpa using hlive)]
    exact ⟨rfl, rfl⟩

theorem State.restart_images (s : State) :
    s.restart.bank.imgA = s.bank.imgA ∧ s.restart.bank.imgB = s.bank.imgB := by
  unfold State.restart State.endJobForRestart
  dsimp only
  split <;> exact s.cancelCommit_images

theorem State.StorageOk.effect {seq : Byte} {s t : State} (he : Effect seq s t) (h : s.StorageOk) : t.StorageOk := by
  cases he
  case write => exact h.setShadow (Memory.wf_writeAll _ _ _ h.shadow_wf) rfl rfl rfl
  case copy => exact h.setShadow h.active_wf rfl rfl rfl
  case loadData => exact h.setShadow (Memory.wf_writeAll _ _ _ h.shadow_wf) rfl rfl rfl
  case stop => exact h.congr (s.enterSafe_images _ _ _).1 (s.enterSafe_images _ _ _).2 (by simp)
  case restart => exact h.congr s.restart_images.1 s.restart_images.2 (by rw [Effect.relay_eq (seq := seq) .restart])
  case enable g _ _ => exact storage_gatesFree.enableGroup g h
  all_goals exact h.congr rfl rfl rfl

theorem State.StorageOk.enterSafe {s : State} (h : s.StorageOk) (c : SafeCause) (f : Option FaultCause)
    (k : Option (Fin 6)) : (s.enterSafe c f k).StorageOk :=
  h.congr (s.enterSafe_images c f k).1 (s.enterSafe_images c f k).2 (by simp)

theorem storage_linkKeeps : LinkKeeps State.StorageOk where
  relay _ _ hr h := ⟨h.imgA, h.imgB, hr.delay h.delay⟩
  slots _ _ _ h := h.congr rfl rfl rfl
  roll _ _ _ _ h := h.congr rfl rfl rfl
  mgmt _ _ h := h.congr rfl rfl rfl
  count _ _ _ h := h.congr rfl rfl rfl
  waiting _ _ _ h := h.congr rfl rfl rfl
  goodCycle s h := by
    unfold State.goodCycle
    split
    · exact h.congr rfl rfl rfl
    · exact h
  takeRecord s r _ h := by
    rw [s.takeRecord_frame r]
    exact h.congr rfl rfl rfl
  adopt s a _ h := h.congr (by simp) (by simp) (by simp)
  decide k seq args s _ := decideKind_keeps (P := State.StorageOk) (fun _ _ h => h.congr rfl rfl rfl)
    (fun _ _ _ h => h.congr rfl rfl rfl) (fun _ _ _ he h => h.effect he) k seq args s

theorem storage_boundaryKeeps : BoundaryKeeps State.StorageOk where
  gen _ _ h := h.congr rfl rfl rfl
  swap s p h := h.congr (s.swapAt_images p).1 (s.swapAt_images p).2 (by simp)
  wrap _ h := h.congr rfl rfl rfl
  loss _ _ h := h.congr rfl rfl rfl
  start s h := h.congr (by simp) (by simp) (by simp)
  groups _ _ h := h.congr rfl rfl rfl
  queue _ _ h := h.congr rfl rfl rfl
  count _ _ _ h := h.congr rfl rfl rfl
  safe _ c f k _ h := h.enterSafe c f k
  drive _ h := h.congr rfl rfl rfl



theorem State.completeCheck_images_relay (s : State) :
    s.completeCheck.bank.imgA = s.bank.imgA ∧ s.completeCheck.bank.imgB = s.bank.imgB
      ∧ s.completeCheck.relay = s.relay := by
  unfold State.completeCheck
  dsimp only
  split <;> exact ⟨rfl, rfl, rfl⟩

theorem storage_eventsKeep : EventsKeep State.StorageOk where
  pins _ _ h := h.congr rfl rfl rfl
  elapse s n h := h.congr (by simp) (by simp) (by simp)
  boundary _ _ h := storage_boundaryKeeps.boundary h
  change _ _ _ _ _ h := h.congr rfl rfl rfl
  deadEnd _ _ _ h := h.congr rfl rfl rfl
  trip s i _ h := storage_gatesFree.detectTrip (fun _ _ _ h => h.congr rfl rfl rfl)
    (fun _ _ _ _ _ h => h.congr rfl rfl rfl) i h
  pinLevel _ _ _ h := h.congr rfl rfl rfl
  episodeEnd _ _ _ h := h.congr rfl rfl rfl
  restore s g _ _ _ h := storage_gatesFree.restoreExpiry g h
  gap _ _ h := h.congr rfl rfl rfl
  check s _ h := by
    obtain ⟨hA, hB, hrelay⟩ := s.completeCheck_images_relay
    exact h.congr hA hB (by rw [hrelay])
  safe _ c f k _ h := h.enterSafe c f k
  power _ _ h := ⟨Memory.wf_nil, Memory.wf_nil, h.delay⟩

/-- Settles O54: every operation writes canonical images (`Memory.wf_writeAll`) or only exchanges their roles, and what
enters the delay line pushes one symbol out. -/
theorem storageInvariant : Obligations.StorageInvariant := fun _ _ =>
  step_keeps storage_linkKeeps storage_eventsKeep

end Sys2Proof.Machine

/-! ## The invariant of counters and fault log (R106, R107, R110, R112) -/

namespace Sys2Proof.Machine

/-- The invariant speaks of counters and log alone. -/
theorem State.RecordsOk.congr {s t : State} (h : s.RecordsOk) (hc : t.counters = s.counters) (hl : t.log = s.log) :
    t.RecordsOk where
  counters := hc ▸ h.counters
  size := hl ▸ h.size
  dropped := hl ▸ h.dropped
  empty := hl ▸ h.empty
  numbers := hl ▸ h.numbers

theorem saturate_le (x n : Nat) : saturate x n ≤ 65535 := Nat.min_le_left _ _

/-- What a counter holds after increments of a counter (R112). -/
theorem Counters.get_add (c : Counters) (n : Nat) (id k : CounterId) :
    (c.add n id).get k = if k = id then saturate (c.get k) n else c.get k := by
  cases id <;> cases k <;> rfl

theorem State.RecordsOk.countN {s : State} (h : s.RecordsOk) (id : CounterId) (n : Nat) : (s.countN id n).RecordsOk where
  counters k := by
    rw [State.countN, Counters.get_add]
    split
    · exact saturate_le _ _
    · exact h.counters k
  size := h.size
  dropped := h.dropped
  empty := h.empty
  numbers := h.numbers

theorem State.RecordsOk.count {s : State} (h : s.RecordsOk) (id : CounterId) : (s.count id).RecordsOk := h.countN id 1

/-- The numbers of the held records count up to the next one (R106). -/
def FaultLog.Numbered (l : FaultLog) : Prop :=
  ∀ k r, l.records[k]? = some r → r.number = l.next - BitVec.ofNat 16 (l.records.length - k)

theorem FaultLog.Numbered.append_stored {l : FaultLog} (h : l.Numbered) (r : FaultRecord) :
    FaultLog.Numbered
      { records := l.records ++ [{ r with number := l.next }], next := l.next + 1, dropped := l.dropped } := by
  intro k x hx
  have hsucc (n : Nat) : l.next + 1 - BitVec.ofNat 16 (n + 1) = l.next - BitVec.ofNat 16 n := by
    rw [BitVec.ofNat_add]
    bv_omega
  simp only [List.length_append, List.length_singleton]
  rw [List.getElem?_append] at hx
  split at hx
  · rename_i hk
    rw [h k x hx, Nat.sub_add_comm hk.le, hsucc]
  · rename_i hk
    have hlast : k = l.records.length := by
      by_contra hne
      rw [List.getElem?_eq_none (by simp; omega)] at hx
      cases hx
    subst hlast
    obtain rfl : _ = x := by simpa using hx
    rw [Nat.add_sub_cancel_left, hsucc 0]
    simp

theorem FaultLog.Numbered.pop {l : FaultLog} (h : l.Numbered) : l.pop.Numbered := by
  intro k x hx
  have hx' : l.records[k + 1]? = some x := by simpa [FaultLog.pop] using hx
  have hlen : l.pop.records.length - k = l.records.length - (k + 1) := by
    simp [FaultLog.pop]
    omega
  rw [hlen, h (k + 1) x hx']
  rfl

theorem State.RecordsOk.record {s : State} (h : s.RecordsOk) (c : FaultCause) (g : Option (Fin 2)) (i : Option (Fin 4))
    (k : Option (Fin 6)) : (s.record c g i k).RecordsOk := by
  have hnumbers : s.log.Numbered := h.numbers
  obtain hroom | hfull := Nat.lt_or_ge s.log.records.length 8
  · have hlog := s.log.append_stored (Nat.le_of_lt_succ hroom)
      (FaultRecord.mk 0 c s.node.state s.timer.period s.timer.tick g i k)
    refine ⟨h.counters, ?_, ?_, ?_, ?_⟩ <;> simp only [State.record, hlog]
    · simpa using hroom
    · exact h.dropped
    · exact fun hnil => absurd hnil (by simp)
    · exact hnumbers.append_stored (FaultRecord.mk 0 c s.node.state s.timer.period s.timer.tick g i k)
  · have hlog := s.log.append_dropped hfull
      (FaultRecord.mk 0 c s.node.state s.timer.period s.timer.tick g i k)
    refine ⟨h.counters, ?_, ?_, ?_, ?_⟩ <;> simp only [State.record, hlog]
    · exact h.size
    · exact Nat.min_le_left _ _
    · exact fun hnil => absurd hfull (by simp [hnil])
    · exact h.numbers

theorem State.RecordsOk.pop {s : State} (h : s.RecordsOk) : State.RecordsOk { s with log := s.log.pop } where
  counters := h.counters
  size := by
    have := h.size
    simp [FaultLog.pop]
    omega
  dropped := by
    have := h.dropped
    simp only [FaultLog.pop]
    split <;> omega
  empty hnil := by
    have hlen := congrArg List.length (show s.log.records.tail = [] from hnil)
    simp only [List.length_tail, List.length_nil] at hlen
    exact if_pos (by omega)
  numbers := FaultLog.Numbered.pop h.numbers

theorem State.RecordsOk.zero {s : State} (h : s.RecordsOk) : State.RecordsOk { s with counters := .zero } where
  counters id := by cases id <;> exact Nat.zero_le _
  size := h.size
  dropped := h.dropped
  empty := h.empty
  numbers := h.numbers

theorem State.enterSafe_log (s : State) (c : SafeCause) (f : Option FaultCause) (k : Option (Fin 6)) :
    (s.enterSafe c f k).log = if s.node.state.live then s.logAfter f k else s.log := by
  by_cases hlive : s.node.state.live = true
  · rw [s.enterSafe_live c f k hlive, if_pos hlive]
  · rw [s.enterSafe_idle c f k (by simpa using hlive), if_neg hlive]

theorem State.RecordsOk.enterSafe {s : State} (h : s.RecordsOk) (c : SafeCause) (f : Option FaultCause)
    (k : Option (Fin 6)) : (s.enterSafe c f k).RecordsOk := by
  have hlog := s.enterSafe_log c f k
  split at hlog
  · cases f with
    | none => exact h.congr (by simp) hlog
    | some r => exact (h.record r none none k).congr (by simp) hlog
  · exact h.congr (by simp) hlog

theorem records_gatesFree : GatesFree State.RecordsOk where
  gen _ _ h := h.congr rfl rfl
  prot _ _ h := h.congr rfl rfl

/-- A restart empties the counters and keeps the log (R39). -/
theorem State.restart_counters_log (s : State) : s.restart.counters = .zero ∧ s.restart.log = s.log := by
  unfold State.restart State.endJobForRestart
  dsimp only
  split <;> simp

theorem State.RecordsOk.effect {seq : Byte} {s t : State} (he : Effect seq s t) (h : s.RecordsOk) : t.RecordsOk := by
  cases he
  case stop => exact h.enterSafe _ _ _
  case restart => exact h.zero.congr s.restart_counters_log.1 s.restart_counters_log.2
  case enable g _ _ => exact records_gatesFree.enableGroup g h
  case pop => exact h.pop
  case zero => exact h.zero
  case abort => exact State.RecordsOk.count (s := s.endJob) (h.congr rfl rfl) _
  all_goals exact h.congr rfl rfl

theorem records_linkKeeps : LinkKeeps State.RecordsOk where
  relay _ _ _ h := h.congr rfl rfl
  slots _ _ _ h := h.congr rfl rfl
  roll _ _ _ _ h := h.congr rfl rfl
  mgmt _ _ h := h.congr rfl rfl
  count _ id n h := h.countN id n
  waiting _ _ _ h := h.congr rfl rfl
  goodCycle s h := by
    unfold State.goodCycle
    split
    · exact h.congr rfl rfl
    · exact h
  takeRecord s r _ h := by
    unfold State.takeRecord
    dsimp only
    split
    · refine State.RecordsOk.count ?_ _
      exact h.congr rfl rfl
    · exact h.congr rfl rfl
  adopt s a _ h := h.congr (by simp) (by simp)
  decide k seq args s _ := decideKind_keeps (P := State.RecordsOk) (fun _ _ h => h.congr rfl rfl)
    (fun _ id n h => h.countN id n) (fun _ _ _ he h => h.effect he) k seq args s

theorem records_boundaryKeeps : BoundaryKeeps State.RecordsOk where
  gen _ _ h := h.congr rfl rfl
  swap s p h := h.congr (by simp) (by simp)
  wrap _ h := h.congr rfl rfl
  loss _ _ h := h.congr rfl rfl
  start s h := h.congr (by simp) (by simp)
  groups _ _ h := h.congr rfl rfl
  queue _ _ h := h.congr rfl rfl
  count _ id n h := h.countN id n
  safe _ c f k _ h := h.enterSafe c f k
  drive _ h := h.congr rfl rfl

theorem State.RecordsOk.completeCheck {s : State} (h : s.RecordsOk) : s.completeCheck.RecordsOk := by
  unfold State.completeCheck
  dsimp only
  split
  · exact h.congr rfl rfl
  · refine State.RecordsOk.count ?_ _
    exact h.congr rfl rfl

theorem records_eventsKeep : EventsKeep State.RecordsOk where
  pins _ _ h := h.congr rfl rfl
  elapse s n h := h.congr (by simp) (by simp)
  boundary _ _ h := records_boundaryKeeps.boundary h
  change _ _ _ _ _ h := h.congr rfl rfl
  deadEnd _ _ _ h := h.congr rfl rfl
  trip s i _ h := records_gatesFree.detectTrip (fun _ id n h => h.countN id n) (fun _ c g i k h => h.record c g i k) i h
  pinLevel _ _ _ h := h.congr rfl rfl
  episodeEnd _ _ _ h := h.congr rfl rfl
  restore s g _ _ _ h := records_gatesFree.restoreExpiry g h
  gap s _ h := State.RecordsOk.count (s := s.endJob) (h.congr rfl rfl) _
  check _ _ h := h.completeCheck
  safe _ c f k _ h := h.enterSafe c f k
  power _ _ _ :=
    ⟨fun id => by cases id <;> exact Nat.zero_le _, Nat.zero_le _, Nat.zero_le _, fun _ => rfl, fun _ _ h => by cases h⟩

/-- Settles O57: counters are saturated, an append stores with the next number or counts a drop, a pop keeps the numbers of
the records behind the oldest. -/
theorem recordsInvariant : Obligations.RecordsInvariant := fun _ _ =>
  step_keeps records_linkKeeps records_eventsKeep

/-! ## The invariant of the address (R128) -/

/-- The invariant speaks of the handler, the node state and the parser of the frame. -/
theorem State.AddressOk.congr {s t : State} (h : s.AddressOk) (hr : t.roll = s.roll)
    (hn : t.node.state = s.node.state) (hp : t.relay = s.relay) : t.AddressOk where
  zero := by rw [hr, hn]; exact h.zero
  range := by rw [hr]; exact h.range
  staged := by rw [hr]; exact h.staged
  parser := by rw [hn, hp]; exact h.parser

/-- A node that stays addressed keeps its address. -/
theorem State.AddressOk.addressed {s t : State} (h : s.AddressOk) (hs : s.node.state ≠ .unaddressed)
    (hr : t.roll = s.roll) (hn : t.node.state ≠ .unaddressed) : t.AddressOk where
  zero := by
    rw [hr]
    exact iff_of_false (mt h.zero.mp hs) hn
  range := by rw [hr]; exact h.range
  staged := by rw [hr]; exact h.staged
  parser hu := absurd hu hn

theorem NodeState.live_addressed {n : NodeState} (h : n.live = true) : n ≠ .unaddressed := by
  rintro rfl
  cases h

theorem address_gatesFree : GatesFree State.AddressOk where
  gen _ _ h := h.congr rfl rfl rfl
  prot _ _ h := h.congr rfl rfl rfl

/-- An entry into SAFE ends in SAFE when it is made in ARMED or RUN (R33). -/
theorem State.enterSafe_state (s : State) (c : SafeCause) (f : Option FaultCause) (k : Option (Fin 6)) :
    (s.enterSafe c f k).node.state = if s.node.state.live then .safe else s.node.state := by
  unfold State.enterSafe
  dsimp only
  split <;> rfl

theorem State.AddressOk.enterSafe {s : State} (h : s.AddressOk) (c : SafeCause) (f : Option FaultCause)
    (k : Option (Fin 6)) : (s.enterSafe c f k).AddressOk := by
  have hstate := s.enterSafe_state c f k
  split at hstate
  · rename_i hlive
    exact h.addressed (NodeState.live_addressed hlive) (by simp) (by rw [hstate]; decide)
  · exact h.congr (by simp) hstate (by simp)

/-- A restart leaves the address and ends in CONFIG (R39). -/
theorem State.restart_roll_state (s : State) : s.restart.roll = s.roll ∧ s.restart.node.state = .config := by
  unfold State.restart State.endJobForRestart
  dsimp only
  split <;> simp [State.toConfig]

theorem State.AddressOk.effect {seq : Byte} {s t : State} (he : Effect seq s t) (hu : s.node.state ≠ .unaddressed)
    (h : s.AddressOk) : t.AddressOk := by
  cases he
  case arm => exact h.addressed hu rfl (by simp [State.arm])
  case stop => exact h.enterSafe _ _ _
  case clear => exact h.addressed hu rfl (by simp [State.toConfig])
  case restart => exact h.addressed hu s.restart_roll_state.1 (by rw [s.restart_roll_state.2]; decide)
  case enable g _ _ => exact address_gatesFree.enableGroup g h
  all_goals exact h.congr rfl rfl rfl

/-- The parser chosen for a node state is the engine only in an addressed node (R125). -/
theorem parserFor_unaddressed (k : Byte) : parserFor k .unaddressed ≠ .mgmt := by
  simp only [parserFor, ↓reduceIte]
  split_ifs <;> decide

theorem State.AddressOk.relay {s : State} {r : Relay} (hr : s.RelayMove r) (h : s.AddressOk) :
    State.AddressOk { s with relay := r } where
  zero := h.zero
  range := h.range
  staged := h.staged
  parser hu := by
    obtain hp | hp | ⟨k, hp⟩ := hr.parser <;> rw [hp]
    · decide
    · exact h.parser hu
    · rw [show s.node.state = .unaddressed from hu]
      exact parserFor_unaddressed k

/-- An address is adopted in UNADDRESSED and CONFIG, and the node is then in CONFIG (R130). -/
theorem State.AddressOk.adopt {s : State} {a : Byte} (ha : s.roll.staged = some a) (h : s.AddressOk) :
    (s.adopt a).AddressOk := by
  obtain ⟨hzero, hrange⟩ := h.staged a ha
  unfold State.adopt
  split
  · exact ⟨iff_of_false hzero (by simp), hrange, h.staged, fun hu => absurd hu (by simp)⟩
  · rename_i hconfig
    exact ⟨iff_of_false hzero (by simp [hconfig]), hrange, h.staged, fun hu => absurd hu (by simp [hconfig])⟩
  all_goals exact h

theorem address_linkKeeps : LinkKeeps State.AddressOk where
  relay _ _ hr h := h.relay hr
  slots _ _ _ h := h.congr rfl rfl rfl
  roll s f haddress hstaged h :=
    { zero := by rw [State.withRoll, haddress]; exact h.zero
      range := by rw [State.withRoll, haddress]; exact h.range
      staged := fun a ha => (hstaged a ha).elim (h.staged a) id
      parser := h.parser }
  mgmt _ _ h := h.congr rfl rfl rfl
  count _ _ _ h := h.congr rfl rfl rfl
  waiting _ _ _ h := h.congr rfl rfl rfl
  goodCycle s h := by
    unfold State.goodCycle
    split
    · exact h.congr rfl rfl rfl
    · exact h
  takeRecord s r _ h := by
    rw [s.takeRecord_frame r]
    exact h.congr rfl rfl rfl
  adopt _ _ ha h := h.adopt ha
  decide k seq args s hp h :=
    (decideKind_keeps (P := fun s => s.AddressOk ∧ s.relay.frame.parser = .mgmt)
      (fun _ _ ⟨h, hp⟩ => ⟨h.congr rfl rfl rfl, hp⟩) (fun _ _ _ ⟨h, hp⟩ => ⟨h.congr rfl rfl rfl, hp⟩)
      (fun _ _ _ he ⟨h, hp⟩ => ⟨h.effect he fun hu => h.parser hu hp, by rwa [he.relay_eq]⟩) k seq args s ⟨h, hp⟩).1

theorem address_boundaryKeeps : BoundaryKeeps State.AddressOk where
  gen _ _ h := h.congr rfl rfl rfl
  swap s p h := h.congr (by simp) (by simp) (by simp)
  wrap _ h := h.congr rfl rfl rfl
  loss _ _ h := h.congr rfl rfl rfl
  start s h := by
    unfold State.startEntry
    split
    · rename_i harmed
      exact h.addressed (by simp [harmed.1]) rfl (by simp)
    · exact h
  groups _ _ h := h.congr rfl rfl rfl
  queue _ _ h := h.congr rfl rfl rfl
  count _ _ _ h := h.congr rfl rfl rfl
  safe _ c f k _ h := h.enterSafe c f k
  drive _ h := h.congr rfl rfl rfl

theorem State.AddressOk.completeCheck {s : State} (h : s.AddressOk) : s.completeCheck.AddressOk := by
  unfold State.completeCheck
  dsimp only
  split <;> exact h.congr rfl rfl rfl

theorem address_eventsKeep : EventsKeep State.AddressOk where
  pins _ _ h := h.congr rfl rfl rfl
  elapse s n h := h.congr (by simp) (by simp) (by simp)
  boundary _ _ h := address_boundaryKeeps.boundary h
  change _ _ _ _ _ h := h.congr rfl rfl rfl
  deadEnd _ _ _ h := h.congr rfl rfl rfl
  trip s i _ h := address_gatesFree.detectTrip (fun _ _ _ h => h.congr rfl rfl rfl)
    (fun _ _ _ _ _ h => h.congr rfl rfl rfl) i h
  pinLevel _ _ _ h := h.congr rfl rfl rfl
  episodeEnd _ _ _ h := h.congr rfl rfl rfl
  restore s g _ _ _ h := address_gatesFree.restoreExpiry g h
  gap _ _ h := h.congr rfl rfl rfl
  check _ _ h := h.completeCheck
  safe _ c f k _ h := h.enterSafe c f k
  power s b _ :=
    { zero := iff_of_true rfl rfl
      range := show (0 : Byte) ≠ 255 by decide
      staged := fun _ h => by cases h
      parser := fun _ => show Parser.none ≠ .mgmt by decide }

/-- Settles O56: an address is staged in the range 1 to 254 and adopted in UNADDRESSED and CONFIG alone, and a request is
decided only where the frame's parser is the engine, which an UNADDRESSED node never chooses. -/
theorem addressInvariant : Obligations.AddressInvariant := fun _ _ =>
  step_keeps address_linkKeeps address_eventsKeep

end Sys2Proof.Machine

/-! ## The invariant of groups and inputs (R82 to R85, R89, R100, R101) -/

namespace Sys2Proof.Machine

/-- The laws of one input in a node state. -/
structure TripInput.Ok (x : TripInput) (n : NodeState) : Prop where
  filter : x.count ≤ x.entry.filter.toNat
  blanking : x.entry.blanking.toNat ≤ 1023
  blank : x.blank ≤ 1023
  delay : x.entry.delay ≠ 0
  rest : x.detecting n = false → x.count = 0 ∧ x.blank = 0 ∧ x.blanked = false ∧ x.episode = false

/-- The laws of one group in a node state. -/
structure ProtGroup.Ok (x : ProtGroup) (n : NodeState) : Prop where
  w : x.entry.w ≠ 0
  esc : x.esc ≤ 255
  window : x.window ≤ 255
  range : x.timer ≤ 65535
  off : x.state = .cycleOff ∨ x.state = .timedOff → n.live = true
  timer : x.state ≠ .timedOff → x.timer = 0
  idle : n = .unaddressed ∨ n = .config → x.state = .enabled

/-- The invariant holds input by input and group by group. -/
theorem State.groupsOk_iff (s : State) :
    s.GroupsOk ↔ (∀ i, (s.prot.inputs.get i).Ok s.node.state) ∧ ∀ g, (s.prot.groups.get g).Ok s.node.state := by
  constructor
  · intro h
    refine ⟨fun i => ⟨h.filter i, (h.blanking i).1, (h.blanking i).2, h.delay i, h.inputs i⟩, fun g => ?_⟩
    obtain ⟨hw, hesc, hwindow, htimer⟩ := h.counts g
    exact ⟨hw, hesc, hwindow, htimer, fun hoff => (NodeState.live_iff _).mpr (h.off g hoff), h.timer g,
      fun hidle => h.idle hidle g⟩
  · rintro ⟨hi, hg⟩
    exact
      { filter := fun i => (hi i).filter
        blanking := fun i => ⟨(hi i).blanking, (hi i).blank⟩
        delay := fun i => (hi i).delay
        counts := fun g => ⟨(hg g).w, (hg g).esc, (hg g).window, (hg g).range⟩
        off := fun g hoff => (NodeState.live_iff _).mp ((hg g).off hoff)
        timer := fun g => (hg g).timer
        idle := fun hidle g => (hg g).idle hidle
        inputs := fun i => (hi i).rest }

/-! ### Inputs -/

namespace TripInput.Ok

variable {x : TripInput} {n : NodeState} (h : x.Ok n)
include h

/-- Of the node state the laws of an input see only whether detection can run. -/
theorem of_live {n' : NodeState} (hn : n'.live = n.live) : x.Ok n' :=
  ⟨h.filter, h.blanking, h.blank, h.delay, by rw [TripInput.detecting, hn]; exact h.rest⟩

/-- Detection that begins asks for nothing. -/
theorem atRest (n' : NodeState) : x.atRest.Ok n' :=
  ⟨Nat.zero_le _, h.blanking, Nat.zero_le _, h.delay, fun _ => ⟨rfl, rfl, rfl, rfl⟩⟩

theorem elapse (k : Nat) : (x.elapse k n).Ok n := by
  unfold TripInput.elapse
  split
  case isTrue hdet =>
    have hcount : x.countAfter k ≤ x.entry.filter.toNat := by
      unfold TripInput.countAfter
      have := h.filter
      split_ifs <;> omega
    exact ⟨hcount, h.blanking, (Nat.sub_le _ _).trans h.blank, h.delay, fun hoff => absurd (hdet.symm.trans hoff) (by simp)⟩
  case isFalse => exact ⟨Nat.zero_le _, h.blanking, Nat.zero_le _, h.delay, fun _ => ⟨rfl, rfl, rfl, rfl⟩⟩

theorem reblank (hlive : n.live = true) (changed : Fin 2 → Bool) : (x.reblank changed).Ok n := by
  unfold TripInput.reblank
  split
  · exact h
  · rename_i g hg
    split
    · exact ⟨h.filter, h.blanking, h.blanking, h.delay, fun hoff => absurd hoff (by simp [TripInput.detecting, hlive, hg])⟩
    · exact h

/-- A trip detected fills the filter and begins an episode. -/
theorem detected (hdet : x.detecting n = true) : TripInput.Ok { x with count := x.entry.filter.toNat, episode := true } n :=
  ⟨Nat.le_refl _, h.blanking, h.blank, h.delay, fun hoff => absurd (hdet.symm.trans hoff) (by simp)⟩

theorem withPin (b : Bool) : TripInput.Ok { x with pin := b } n := ⟨h.filter, h.blanking, h.blank, h.delay, h.rest⟩

theorem episodeEnd (b : Bool) : TripInput.Ok { x with pin := b, count := 0, episode := false } n :=
  ⟨Nat.zero_le _, h.blanking, h.blank, h.delay, fun hoff => ⟨rfl, (h.rest hoff).2.1, (h.rest hoff).2.2.1, rfl⟩⟩

/-- An entry is written in CONFIG, where nothing is held (R82, R85). -/
theorem withEntry (hn : n = .config) {e : TripEntry} (hblank : e.blanking.toNat ≤ 1023) (hdelay : e.delay ≠ 0) :
    TripInput.Ok { x with entry := e } n := by
  subst hn
  have hrest := h.rest rfl
  exact ⟨by simp [hrest.1], hblank, h.blank, hdelay, fun _ => hrest⟩

end TripInput.Ok

/-! ### Groups -/

namespace ProtGroup.Ok

variable {x : ProtGroup} {n : NodeState} (h : x.Ok n)
include h

theorem of_live {n' : NodeState} (hn : n'.live = true) : x.Ok n' :=
  ⟨h.w, h.esc, h.window, h.range, fun _ => hn, h.timer, fun hidle => by obtain rfl | rfl := hidle <;> cases hn⟩

theorem elapse (k : Nat) : (x.elapse k n).Ok n := by
  unfold ProtGroup.elapse
  split
  · rename_i hoff
    exact ⟨h.w, h.esc, h.window, (Nat.sub_le _ _).trans h.range, h.off, fun hne => absurd hoff.2 hne, h.idle⟩
  · exact h

theorem leaveLive : x.leaveLive.Ok .safe := by
  unfold ProtGroup.leaveLive
  refine ⟨h.w, h.esc, h.window, Nat.zero_le _, fun hoff => ?_, fun _ => rfl, fun hidle => by simp at hidle⟩
  dsimp only at hoff
  split at hoff <;> simp at hoff

theorem clear (n' : NodeState) : x.clear.Ok n' :=
  ⟨h.w, Nat.zero_le _, Nat.zero_le _, Nat.zero_le _, fun hoff => by simp [ProtGroup.clear] at hoff, fun _ => rfl,
    fun _ => rfl⟩

/-- A group at rest: ENABLED without counts, as ARM and an adopted address find it. -/
theorem of_idle (hn : n = .unaddressed ∨ n = .config) (n' : NodeState) : x.Ok n' :=
  ⟨h.w, h.esc, h.window, h.range, fun hoff => by simp [h.idle hn] at hoff, h.timer, fun _ => h.idle hn⟩

theorem withCounts {esc window : Nat} (hesc : esc ≤ 255) (hwindow : window ≤ 255) :
    ProtGroup.Ok { x with esc := esc, window := window } n :=
  ⟨h.w, hesc, hwindow, h.range, h.off, h.timer, h.idle⟩

theorem withEntry {e : GroupEntry} (hw : e.w ≠ 0) : ProtGroup.Ok { x with entry := e } n :=
  ⟨hw, h.esc, h.window, h.range, h.off, h.timer, h.idle⟩

/-- A group may become ENABLED when its restore timer has run out (R94, R95, R99). -/
theorem enabled (ht : x.timer = 0) : ProtGroup.Ok { x with state := .enabled } n :=
  ⟨h.w, h.esc, h.window, h.range, fun hoff => by simp at hoff, fun _ => ht, fun _ => rfl⟩

theorem latched (hn : n.live = true) : ProtGroup.Ok { x with state := .latched, timer := 0 } n :=
  ⟨h.w, h.esc, h.window, Nat.zero_le _, fun hoff => by simp at hoff, fun _ => rfl,
    fun hidle => by obtain rfl | rfl := hidle <;> cases hn⟩

theorem restarted (hoff : x.state = .timedOff) {d : Nat} (hd : d ≤ 65535) : ProtGroup.Ok { x with timer := d } n :=
  ⟨h.w, h.esc, h.window, hd, h.off, fun hne => absurd hoff hne, h.idle⟩

/-- A trip leaves a restore timer only with the group TIMED_OFF (R90 to R92). -/
theorem trip (hn : n.live = true) (a : TripAction) {delay : Nat} (hd : delay ≤ 65535) : (x.trip a delay).Ok n := by
  have hrange : x.timerAfter a delay ≤ 65535 := by
    have := h.range
    unfold ProtGroup.timerAfter
    split <;> [skip; split_ifs; split_ifs] <;> omega
  have htimer : (x.trip a delay).state ≠ .timedOff → x.timerAfter a delay = 0 := by
    have := h.timer
    cases a <;> cases hs : x.state <;> simp_all [ProtGroup.trip, ProtGroup.timerAfter, GroupState.strength,
      TripAction.target]
  refine ⟨h.w, ?_, h.window, hrange, fun _ => hn, htimer, fun hidle => by obtain rfl | rfl := hidle <;> cases hn⟩
  have := h.esc
  simp only [ProtGroup.trip]
  split <;> omega

theorem boundary (hn : n.live = true) (asserted : Bool) : (x.boundary asserted).Ok n := by
  have hw : x.entry.w.toNat ≤ 255 := Nat.le_of_lt_succ x.entry.w.isLt
  have hesc := h.esc
  refine ⟨h.w, ?_, ?_, h.range, fun _ => hn, fun hne => ?_, fun hidle => by obtain rfl | rfl := hidle <;> cases hn⟩
  · simp only [ProtGroup.boundary]
    split <;> omega
  · simp only [ProtGroup.boundary]
    split <;> omega
  · by_cases hoff : x.state = .timedOff
    · exact absurd (by simp [ProtGroup.boundary, hoff]) hne
    · exact h.timer hoff

end ProtGroup.Ok

/-! ### The operations -/

/-- The invariant speaks of the Protection Unit and the node state alone. -/
theorem State.GroupsOk.congr {s t : State} (h : s.GroupsOk) (hp : t.prot = s.prot)
    (hn : t.node.state = s.node.state) : t.GroupsOk := by
  rw [State.groupsOk_iff] at h ⊢
  rwa [hp, hn]

/-- A new Protection Unit meets the laws, input by input and group by group. -/
theorem State.GroupsOk.map {s t : State} (h : s.GroupsOk)
    (hi : ∀ i, (s.prot.inputs.get i).Ok s.node.state → (t.prot.inputs.get i).Ok t.node.state)
    (hg : ∀ g, (s.prot.groups.get g).Ok s.node.state → (t.prot.groups.get g).Ok t.node.state) : t.GroupsOk := by
  rw [State.groupsOk_iff] at h ⊢
  exact ⟨fun i => hi i (h.1 i), fun g => hg g (h.2 g)⟩

theorem State.GroupsOk.elapse {s : State} (h : s.GroupsOk) (n : Nat) : (s.elapse n).GroupsOk := by
  unfold State.elapse
  split
  · exact h
  · refine h.map (fun i hi => ?_) (fun g hg => ?_)
    · simpa using hi.elapse n
    · simpa using hg.elapse n

theorem State.GroupsOk.drive {s : State} (h : s.GroupsOk) : s.drive.GroupsOk := by
  refine h.map (fun i hi => ?_) (fun g hg => hg)
  simp only [State.drive, Four.get_map]
  split
  · exact hi.reblank ‹_› _
  · exact hi

/-- A change of one group that keeps its laws. -/
theorem State.GroupsOk.modifyGroup {s : State} (h : s.GroupsOk) {g : Fin 2} {f : ProtGroup → ProtGroup}
    (hf : (s.prot.groups.get g).Ok s.node.state → (f (s.prot.groups.get g)).Ok s.node.state) :
    (s.modifyGroup g f).GroupsOk := by
  refine h.map (fun i hi => hi) (fun k hk => ?_)
  simp only [State.modifyGroup, Two.get_modify]
  split
  · subst k
    exact hf hk
  · exact hk

/-- A change of one input that keeps its laws. -/
theorem State.GroupsOk.modifyInput {s : State} (h : s.GroupsOk) {i : Fin 4} {f : TripInput → TripInput}
    (hf : (s.prot.inputs.get i).Ok s.node.state → (f (s.prot.inputs.get i)).Ok s.node.state) :
    State.GroupsOk { s with prot := { s.prot with inputs := s.prot.inputs.modify i f } } := by
  refine h.map (fun j hj => ?_) (fun g hg => hg)
  simp only [Four.get_modify]
  split
  · subst j
    exact hf hj
  · exact hj

theorem State.GroupsOk.enableGroup {s : State} (h : s.GroupsOk) {g : Fin 2} (ht : (s.prot.groups.get g).timer = 0) :
    (s.enableGroup g).GroupsOk := by
  have h1 : (s.modifyGroup g fun x => { x with state := .enabled }).GroupsOk := h.modifyGroup fun hg => hg.enabled ht
  exact State.GroupsOk.drive (h1.congr (by simp) (by simp))

theorem State.GroupsOk.enterSafe {s : State} (h : s.GroupsOk) (c : SafeCause) (f : Option FaultCause)
    (k : Option (Fin 6)) : (s.enterSafe c f k).GroupsOk := by
  unfold State.enterSafe
  dsimp only
  split
  · refine h.map (fun i hi => ?_) (fun g hg => ?_)
    · simpa [Protection.leaveLive] using hi.atRest .safe
    · simpa [Protection.leaveLive] using hg.leaveLive
  · exact h

theorem State.GroupsOk.toConfig {s : State} (h : s.GroupsOk) : s.toConfig.GroupsOk := by
  refine h.map (fun i hi => ?_) (fun g hg => ?_)
  · simpa [State.toConfig, Protection.clear] using hi.atRest .config
  · simpa [State.toConfig, Protection.clear] using hg.clear .config

/-- The Protection Unit and the node state after a restart are those of a node returned to CONFIG (R39, R101). -/
theorem State.restart_prot_state (s : State) :
    s.restart.prot = s.toConfig.prot ∧ s.restart.node.state = s.toConfig.node.state := by
  unfold State.restart State.endJobForRestart
  dsimp only
  split <;> simp [State.toConfig]

theorem State.GroupsOk.arm {s : State} (h : s.GroupsOk) (hn : s.node.state = .config) (n0 : Word) (t : Nat)
    (p : Word) : (s.arm n0 t p).GroupsOk := by
  refine h.map (fun i hi => ?_) (fun g hg => ?_)
  · simpa [State.arm, Protection.arm] using hi.atRest .armed
  · simpa [State.arm, Protection.arm]
      using (hg.of_idle (.inr hn) .armed).withCounts (Nat.zero_le 255) (Nat.zero_le 255)

theorem State.GroupsOk.effect {seq : Byte} {s t : State} (he : Effect seq s t) (h : s.GroupsOk) : t.GroupsOk := by
  cases he
  case input i e hn hblank hdelay => exact h.modifyInput fun hi => hi.withEntry hn hblank hdelay
  case group g e hn hw => exact h.modifyGroup (f := fun x => { x with entry := e }) fun hg => hg.withEntry hw
  case arm n0 t p hn _ _ => exact h.arm hn n0 t p
  case stop => exact h.enterSafe _ _ _
  case clear => exact h.toConfig.congr rfl rfl
  case restart => exact h.toConfig.congr s.restart_prot_state.1 s.restart_prot_state.2
  case enable g _ hlatched => exact h.enableGroup (h.timer g (by simp [hlatched]))
  all_goals exact h.congr rfl rfl

theorem State.GroupsOk.adopt {s : State} (h : s.GroupsOk) (a : Byte) : (s.adopt a).GroupsOk := by
  unfold State.adopt
  split
  · rename_i hn
    refine h.map (fun i hi => ?_) (fun g hg => hg.of_idle (.inl hn) _)
    exact hi.of_live (by rw [hn]; rfl)
  · exact h.congr rfl rfl
  all_goals exact h

theorem groups_linkKeeps : LinkKeeps State.GroupsOk where
  relay _ _ _ h := h.congr rfl rfl
  slots _ _ _ h := h.congr rfl rfl
  roll _ _ _ _ h := h.congr rfl rfl
  mgmt _ _ h := h.congr rfl rfl
  count _ _ _ h := h.congr rfl rfl
  waiting _ _ _ h := h.congr rfl rfl
  goodCycle s h := by
    unfold State.goodCycle
    split
    · exact h.congr rfl rfl
    · exact h
  takeRecord s r _ h := by
    rw [s.takeRecord_frame r]
    exact h.congr rfl rfl
  adopt _ a _ h := h.adopt a
  decide k seq args s _ := decideKind_keeps (P := State.GroupsOk) (fun _ _ h => h.congr rfl rfl)
    (fun _ _ _ h => h.congr rfl rfl) (fun _ _ _ he h => h.effect he) k seq args s

theorem groups_boundaryKeeps : BoundaryKeeps State.GroupsOk where
  gen _ _ h := h.congr rfl rfl
  swap s p h := h.congr (by simp) (by simp)
  wrap _ h := h.congr rfl rfl
  loss _ _ h := h.congr rfl rfl
  start s h := by
    unfold State.startEntry
    split
    · rename_i harmed
      have hlive : s.node.state.live = true := by rw [harmed.1]; rfl
      exact h.map (fun i hi => hi.of_live hlive.symm) (fun g hg => hg.of_live rfl)
    · exact h
  groups s hlive h := by
    refine h.map (fun i hi => hi) (fun g hg => ?_)
    simpa [Protection.boundary] using hg.boundary hlive _
  queue _ _ h := h.congr rfl rfl
  count _ _ _ h := h.congr rfl rfl
  safe _ c f k _ h := h.enterSafe c f k
  drive _ h := h.drive

theorem State.GroupsOk.completeCheck {s : State} (h : s.GroupsOk) : s.completeCheck.GroupsOk := by
  unfold State.completeCheck
  dsimp only
  split <;> exact h.congr rfl rfl

theorem State.GroupsOk.tripGroup {s : State} (h : s.GroupsOk) (hn : s.node.state.live = true) (i : Fin 4) (g : Fin 2)
    (a : TripAction) {delay : Nat} (hd : delay ≤ 65535) : (s.tripGroup i g a delay).GroupsOk := by
  have h0 : (s.noteTrip i g a).GroupsOk := h.congr (by simp) (by simp)
  have h1 : ((s.noteTrip i g a).modifyGroup g fun x => x.trip a delay).GroupsOk :=
    h0.modifyGroup fun hg => hg.trip (by simpa using hn) a hd
  refine State.GroupsOk.drive ?_
  split
  · have h2 := State.GroupsOk.congr h1
      (t := ((s.noteTrip i g a).modifyGroup g fun x => x.trip a delay).record .escalated (some g) (some i) none) rfl rfl
    exact h2.modifyGroup fun hg => hg.latched (by simpa using hn)
  · exact h1

theorem State.GroupsOk.detectTrip {s : State} (h : s.GroupsOk) {i : Fin 4}
    (hdet : (s.prot.inputs.get i).detecting s.node.state = true) : (s.detectTrip i).GroupsOk := by
  have hlive : s.node.state.live = true := by
    simp only [TripInput.detecting, Bool.and_eq_true] at hdet
    exact hdet.1
  have h1 := h.modifyInput (i := i) (f := fun y => { y with count := y.entry.filter.toNat, episode := true })
    fun hi => hi.detected hdet
  unfold State.detectTrip
  dsimp only
  split
  · exact h1.tripGroup hlive i _ _ (Nat.le_of_lt_succ (BitVec.isLt _))
  · exact h1

/-- The longest restore delay is one of two bytes (R95). -/
theorem Protection.longestDelay_le (p : Protection) (g : Fin 2) : p.longestDelay g ≤ 65535 := by
  unfold Protection.longestDelay
  have hfold (l : List TripInput) (m : Nat) (hm : m ≤ 65535) :
      (l.map fun i => i.entry.delay.toNat).foldl max m ≤ 65535 := by
    induction l generalizing m with
    | nil => exact hm
    | cons x l ih => exact ih _ (max_le hm (Nat.le_of_lt_succ x.entry.delay.isLt))
  exact hfold _ 0 (Nat.zero_le _)

theorem State.GroupsOk.restoreExpiry {s : State} (h : s.GroupsOk) {g : Fin 2}
    (hoff : (s.prot.groups.get g).state = .timedOff) (ht : (s.prot.groups.get g).timer = 0) :
    (s.restoreExpiry g).GroupsOk := by
  unfold State.restoreExpiry
  split
  · exact h.modifyGroup fun hg => hg.restarted hoff (s.prot.longestDelay_le g)
  · exact h.enableGroup ht

theorem groups_eventsKeep : EventsKeep State.GroupsOk where
  pins _ _ h := h.congr rfl rfl
  elapse _ n h := h.elapse n
  boundary _ _ h := groups_boundaryKeeps.boundary h
  change _ _ _ _ _ h := State.GroupsOk.drive (h.congr rfl rfl)
  deadEnd _ _ _ h := State.GroupsOk.drive (h.congr rfl rfl)
  trip _ _ hdet h := h.detectTrip hdet
  pinLevel _ _ _ h := h.modifyInput fun hi => hi.withPin _
  episodeEnd _ _ _ h := h.modifyInput fun hi => hi.episodeEnd _
  restore _ _ _ hoff ht h := h.restoreExpiry hoff ht
  gap _ _ h := h.congr rfl rfl
  check _ _ h := h.completeCheck
  safe _ c f k _ h := h.enterSafe c f k
  power s b _ := by
    rw [State.groupsOk_iff]
    constructor
    · intro i
      simp only [State.powerOnValues, Four.get_map]
      exact ⟨Nat.zero_le _, Nat.zero_le _, Nat.zero_le _, show (1 : Word) ≠ 0 by decide, fun _ => ⟨rfl, rfl, rfl, rfl⟩⟩
    · intro g
      simp only [State.powerOnValues, State.reset, Two.get_all]
      exact ⟨show (1 : Byte) ≠ 0 by decide, Nat.zero_le _, Nat.zero_le _, Nat.zero_le _,
        fun hoff => by simp [ProtGroup.powerOn] at hoff, fun _ => rfl, fun _ => rfl⟩

/-- FAULT_N is asserted in SAFE and with a group LATCHED (R102). -/
theorem State.faultAsserted_iff (s : State) :
    s.faultAsserted = true ↔ s.node.state = .safe ∨ ∃ g, (s.prot.groups.get g).state = .latched := by
  have hgroups : (∃ g, (s.prot.groups.get g).state = .latched)
      ↔ s.prot.groups.g0.state = .latched ∨ s.prot.groups.g1.state = .latched := Fin.exists_fin_two
  simp only [State.faultAsserted, hgroups, Bool.or_eq_true, decide_eq_true_eq, or_assoc]

/-- Settles O58: each operation keeps the laws of each input and of each group; a group becomes ENABLED with its restore
timer at 0, and what detection holds is cleared where detection stops. -/
theorem groupsInvariant : Obligations.GroupsInvariant :=
  ⟨fun _ _ => step_keeps groups_linkKeeps groups_eventsKeep, State.faultAsserted_iff⟩

end Sys2Proof.Machine

/-! ## The invariant of the setpoint queues (R43, R44, R54, R59) -/

namespace Sys2Proof.Machine

/-- The laws of one queue in a period, of a node in ARMED or RUN or of another. -/
structure ChannelQueue.Ok (q : ChannelQueue) (now : Word) (live : Bool) : Prop where
  size : q.records.length ≤ 4
  ahead : ∀ r ∈ q.records, 1 ≤ distance now r.target ∧ distance now r.target ≤ 15
  order : q.records.Pairwise fun a b => distance now a.target < distance now b.target
  empty : live = false → q.records = []
  hold : q.hold ≤ 255

/-- The laws of the queues, reckoned from the period `now`. -/
structure State.QueuesAt (s : State) (now : Word) : Prop where
  queue : ∀ c, (s.queue.get c).Ok now s.node.state.live
  staging : (s.slots.staging.map Setpoint.chan).Nodup

/-- The invariant holds channel by channel. -/
theorem State.queuesOk_iff (s : State) : s.QueuesOk ↔ s.QueuesAt s.timer.period := by
  constructor
  · intro h
    exact ⟨fun c => ⟨h.size c, h.ahead c, h.order c, fun hlive => h.empty hlive c, h.hold c⟩, h.staging⟩
  · rintro ⟨hq, hstaging⟩
    exact
      { size := fun c => (hq c).size
        ahead := fun c => (hq c).ahead
        order := fun c => (hq c).order
        empty := fun hlive c => (hq c).empty hlive
        hold := fun c => (hq c).hold
        staging := hstaging }

/-! ### One queue -/

/-- One period on, every period ahead is one nearer (R24). -/
theorem distance_succ {now t : Word} (h : 1 ≤ distance now t) : distance (now + 1) t + 1 = distance now t := by
  unfold distance at *
  bv_omega

theorem distance_eq_one {now t : Word} (h : t ≠ now + 1) : distance now t ≠ 1 := by
  unfold distance
  bv_omega

/-- Different targets are at different distances (R24). -/
theorem distance_inj {now t u : Word} (h : distance now t = distance now u) : t = u := by
  unfold distance at h
  bv_omega

namespace ChannelQueue.Ok

variable {q : ChannelQueue} {now : Word} {live : Bool}

/-- An empty queue meets the laws in every period and node state. -/
theorem of_empty (hr : q.records = []) (hhold : q.hold ≤ 255) : q.Ok now live where
  size := by simp [hr]
  ahead := by simp [hr]
  order := by simp [hr]
  empty _ := hr
  hold := hhold

/-- A queue without a record for the period that begins is one period nearer in it (R51). -/
theorem next_of_ne (h : q.Ok now live) (hne : ∀ r ∈ q.records, r.target ≠ now + 1) : q.Ok (now + 1) live where
  size := h.size
  ahead r hr := by
    obtain ⟨h1, h15⟩ := h.ahead r hr
    have := distance_eq_one (hne r hr)
    have := distance_succ h1
    omega
  order := h.order.imp_of_mem fun ha hb hab => by
    have := distance_succ (h.ahead _ ha).1
    have := distance_succ (h.ahead _ hb).1
    omega
  empty := h.empty
  hold := h.hold

/-- A queue whose head is not for the period that begins is left as it was. -/
theorem rest_of_due_none (hdue : q.due (now + 1) = none) : q.rest (now + 1) = q.records := by
  rw [ChannelQueue.rest, hdue]

/-- The queue without the record for the period that begins (R51, R52). -/
theorem rest (h : q.Ok now live) : ChannelQueue.Ok { q with records := q.rest (now + 1) } (now + 1) live := by
  cases hrec : q.records with
  | nil =>
    have hrest : q.rest (now + 1) = [] := by simp [ChannelQueue.rest, ChannelQueue.due, hrec]
    exact of_empty hrest h.hold
  | cons r l =>
    have horder := h.order
    rw [hrec, List.pairwise_cons] at horder
    obtain ⟨hnear, horder⟩ := horder
    have hfirst := (h.ahead r (by simp [hrec])).1
    have htail (x : Setpoint) (hx : x ∈ l) : x.target ≠ now + 1 := by
      rintro htarget
      have hone : distance now x.target = 1 := by
        rw [htarget]
        unfold distance
        bv_omega
      have := hnear x hx
      omega
    by_cases htarget : r.target = now + 1
    · have hrest : q.rest (now + 1) = l := by simp [ChannelQueue.rest, ChannelQueue.due, hrec, htarget]
      rw [hrest]
      have hsize := h.size
      have hl : ChannelQueue.Ok { q with records := l } now live :=
        { size := by
            rw [hrec, List.length_cons] at hsize
            exact Nat.le_of_succ_le hsize
          ahead := fun x hx => h.ahead x (by simp [hrec, show x ∈ l from hx])
          order := horder
          empty := fun hlive => absurd (h.empty hlive) (by simp [hrec])
          hold := h.hold }
      exact hl.next_of_ne htail
    · have hdue : q.due (now + 1) = none := by
        rw [ChannelQueue.due, hrec]
        exact if_neg htarget
      rw [rest_of_due_none hdue]
      exact h.next_of_ne fun x hx => by
        obtain rfl | hx := List.mem_cons.mp (hrec ▸ hx)
        · exact htarget
        · exact htail x hx

/-- Of a queue the laws see its records and its hold counter. -/
theorem congr {q' : ChannelQueue} (h : q.Ok now live) (hr : q'.records = q.records) (hhold : q'.hold ≤ 255) :
    q'.Ok now live where
  size := hr ▸ h.size
  ahead := hr ▸ h.ahead
  order := hr ▸ h.order
  empty := hr ▸ h.empty
  hold := hhold



/-- A selection removes the record for the period that begins and keeps the hold counter within one byte (R52 to R57). -/
theorem select (h : q.Ok now live) (m : Memory) (c : Fin 6) : (q.select m c (now + 1)).q.Ok (now + 1) live := by
  have hrest := h.rest
  have hhold := h.hold
  have hlimit : imageHoldLimit m ≤ 255 := Nat.le_of_lt_succ (m.read 2).isLt
  have hkept (hdue : q.due (now + 1) = none) {q' : ChannelQueue} (hr : q'.records = q.records)
      (hq : q'.hold ≤ 255) : q'.Ok (now + 1) live :=
    hrest.congr (hr.trans (rest_of_due_none hdue).symm) hq
  unfold ChannelQueue.select
  dsimp only
  split
  · split
    · exact hrest.congr rfl (Nat.zero_le _)
    · split_ifs
      · exact hkept ‹_› rfl hhold
      · exact hkept ‹_› rfl (by dsimp only; omega)
      · exact hkept ‹_› rfl hlimit
      · exact hkept ‹_› rfl hlimit
  · exact hrest.congr rfl (Nat.zero_le _)

theorem boundaryArmed (h : q.Ok now live) (m : Memory) (c : Fin 6) :
    (q.boundaryArmed m c (now + 1)).Ok (now + 1) live := by
  have hrest := h.rest
  unfold ChannelQueue.boundaryArmed
  split
  · rename_i hdue
    exact hrest.congr (rest_of_due_none hdue).symm h.hold
  · split
    · exact hrest.congr rfl h.hold
    · exact hrest

end ChannelQueue.Ok

/-! ### Arrivals -/

/-- An inserted record is one of the queue, beside those that were. -/
theorem mem_insertRecord {now : Word} {r x : Setpoint} {l : List Setpoint} :
    x ∈ insertRecord now r l ↔ x = r ∨ x ∈ l := by
  obtain ⟨a, b, hl, hins, -, -⟩ := insertRecord_split now r l
  rw [hins, hl]
  simp only [List.mem_append, List.mem_cons]
  tauto

/-- An insertion into a queue in rising order, of a target of its own, keeps the order (R49). -/
theorem insertRecord_pairwise {now : Word} {r : Setpoint} {l : List Setpoint}
    (hl : l.Pairwise fun a b => distance now a.target < distance now b.target)
    (hne : ∀ x ∈ l, x.target ≠ r.target) :
    (insertRecord now r l).Pairwise fun a b => distance now a.target < distance now b.target := by
  induction l with
  | nil => simp [insertRecord]
  | cons y l ih =>
    obtain ⟨hy, hl'⟩ := List.pairwise_cons.mp hl
    unfold insertRecord
    split
    · rename_i hnear
      refine List.pairwise_cons.mpr ⟨fun x hx => ?_, hl⟩
      obtain rfl | hx := List.mem_cons.mp hx
      · exact hnear
      · exact hnear.trans (hy x hx)
    · rename_i hnear
      refine List.pairwise_cons.mpr ⟨fun x hx => ?_, ih hl' fun x hx => hne x (List.mem_cons_of_mem y hx)⟩
      obtain rfl | hx := mem_insertRecord.mp hx
      · have hdiff : distance now y.target ≠ distance now x.target := fun heq =>
          hne y (List.mem_cons_self) (distance_inj heq)
        omega
      · exact hy x hx

theorem insertRecord_length (now : Word) (r : Setpoint) (l : List Setpoint) :
    (insertRecord now r l).length = l.length + 1 := by
  obtain ⟨a, b, hl, hins, -, -⟩ := insertRecord_split now r l
  rw [hins, hl]
  simp
  omega

/-- A record classified as replaced or inserted is 1 to 15 periods ahead; an inserted one has a target of its own and
room (R46 to R49). -/
theorem classify_taken {now : Word} {l : List Setpoint} {r : Setpoint} {f : Fate} (hf : classify now l r = f) :
    (f = .replaced ∨ f = .inserted → 1 ≤ distance now r.target ∧ distance now r.target ≤ 15)
      ∧ (f = .inserted → (∀ x ∈ l, x.target ≠ r.target) ∧ l.length < 4) := by
  subst hf
  unfold classify
  split_ifs with hlate hfar hold hfull
  · simp
  · simp
  · simp only [within, Bool.and_eq_false_iff, decide_eq_false_iff_not] at hlate
    simp
    omega
  · simp
  · simp only [within, Bool.and_eq_false_iff, decide_eq_false_iff_not] at hlate
    simp at hold
    simp
    exact ⟨by omega, hold, by omega⟩

/-- A replacement keeps the target of each record (R47). -/
theorem replaceRecord_targets (r : Setpoint) (l : List Setpoint) :
    (replaceRecord r l).map Setpoint.target = l.map Setpoint.target := by
  rw [replaceRecord, List.map_map]
  refine List.map_congr_left fun x _ => ?_
  simp only [Function.comp_apply]
  split
  · exact Eq.symm ‹_›
  · rfl

/-- The laws of a queue's records are laws of their targets. -/
theorem ChannelQueue.Ok.of_targets {q q' : ChannelQueue} {now : Word} {live : Bool} (h : q.Ok now live)
    (ht : q'.records.map Setpoint.target = q.records.map Setpoint.target) (hhold : q'.hold = q.hold) :
    q'.Ok now live where
  size := by
    have := congrArg List.length ht
    simp only [List.length_map] at this
    exact this ▸ h.size
  ahead r hr := by
    have hmem : r.target ∈ q.records.map Setpoint.target := ht ▸ List.mem_map_of_mem hr
    obtain ⟨x, hx, hxr⟩ := List.mem_map.mp hmem
    exact hxr ▸ h.ahead x hx
  order := by
    have hold : (q.records.map Setpoint.target).Pairwise fun a b => distance now a < distance now b :=
      List.pairwise_map.mpr h.order
    rw [← ht] at hold
    exact List.pairwise_map (R := fun a b => distance now a < distance now b).mp hold
  empty hlive := by
    have hnil := h.empty hlive
    rw [hnil, List.map_nil, List.map_eq_nil_iff] at ht
    exact ht
  hold := hhold ▸ h.hold

/-- A taken record keeps the laws of its queue (R45 to R49). -/
theorem ChannelQueue.Ok.take {q : ChannelQueue} {now : Word} (h : q.Ok now true) (r : Setpoint) :
    ChannelQueue.Ok { q with records := (classify now q.records r).apply now r q.records } now true := by
  obtain ⟨hahead, hroom⟩ := classify_taken (rfl : classify now q.records r = _)
  cases hf : classify now q.records r with
  | late => exact h
  | far => exact h
  | overrun => exact h
  | replaced => exact h.of_targets (replaceRecord_targets r q.records) rfl
  | inserted =>
    obtain ⟨hne, hlen⟩ := hroom hf
    refine ⟨?_, fun x hx => ?_, insertRecord_pairwise h.order hne, fun hlive => absurd hlive (by decide), h.hold⟩
    · rw [Fate.apply, insertRecord_length]
      exact hlen
    · obtain rfl | hx := mem_insertRecord.mp hx
      · exact hahead (.inr hf)
      · exact h.ahead x hx

/-! ### The operations -/

/-- The laws speak of the queues, the staging area and whether the node is in ARMED or RUN. -/
theorem State.QueuesAt.congr {s t : State} {now : Word} (h : s.QueuesAt now) (hq : t.queue = s.queue)
    (hs : t.slots.staging = s.slots.staging) (hn : t.node.state.live = s.node.state.live) : t.QueuesAt now :=
  ⟨by rw [hq, hn]; exact h.queue, by rw [hs]; exact h.staging⟩

theorem State.QueuesOk.congr {s t : State} (h : s.QueuesOk) (hq : t.queue = s.queue)
    (hs : t.slots.staging = s.slots.staging) (hn : t.node.state.live = s.node.state.live)
    (hp : t.timer.period = s.timer.period) : t.QueuesOk := by
  rw [State.queuesOk_iff] at h ⊢
  rw [hp]
  exact h.congr hq hs hn

/-- Queues and staging area emptied meet the laws in every period and node state. -/
theorem State.QueuesAt.flushed {s t : State} {now : Word} (h : s.QueuesAt now) (hq : t.queue = s.flush.queue)
    (hs : t.slots.staging = []) (now' : Word) : t.QueuesAt now' := by
  refine ⟨fun c => ?_, by simp [hs]⟩
  rw [hq]
  exact .of_empty (by simp [State.flush]) (by simpa [State.flush] using (h.queue c).hold)

theorem State.QueuesOk.flushed {s t : State} (h : s.QueuesOk) (hq : t.queue = s.flush.queue)
    (hs : t.slots.staging = []) : t.QueuesOk :=
  t.queuesOk_iff.mpr ((s.queuesOk_iff.mp h).flushed hq hs _)

theorem State.QueuesAt.enterSafe {s : State} {now : Word} (h : s.QueuesAt now) (hlive : s.node.state.live = true)
    (c : SafeCause) (f : Option FaultCause) (k : Option (Fin 6)) (now' : Word) : (s.enterSafe c f k).QueuesAt now' := by
  rw [s.enterSafe_live c f k hlive]
  refine h.flushed ?_ ?_ now' <;> rfl

theorem State.QueuesOk.enterSafe {s : State} (h : s.QueuesOk) (c : SafeCause) (f : Option FaultCause)
    (k : Option (Fin 6)) : (s.enterSafe c f k).QueuesOk := by
  by_cases hlive : s.node.state.live = true
  · exact (State.queuesOk_iff _).mpr ((s.queuesOk_iff.mp h).enterSafe hlive c f k _)
  · rwa [s.enterSafe_idle c f k (by simpa using hlive)]

theorem queues_gatesFree : GatesFree State.QueuesOk where
  gen _ _ h := h.congr rfl rfl rfl rfl
  prot _ _ h := h.congr rfl rfl rfl rfl

/-- A restart leaves every queue at its power-on values and the staging area empty (R62, R145). -/
theorem State.restart_queues (s : State) : s.restart.queue = .all .powerOn ∧ s.restart.slots.staging = [] := by
  unfold State.restart State.endJobForRestart
  dsimp only
  split <;> exact ⟨rfl, rfl⟩

theorem State.QueuesOk.arm {s : State} (h : s.QueuesOk) (hn : s.node.state = .config) (n0 : Word) (t : Nat)
    (p : Word) : (s.arm n0 t p).QueuesOk := by
  have hempty := h.empty (by rw [hn]; rfl)
  refine (State.queuesOk_iff _).mpr ⟨fun c => ?_, h.staging⟩
  have hget : (s.arm n0 t p).queue.get c = (s.queue.get c).arm s.bank.activeImage c := by simp [State.arm]
  rw [hget]
  exact .of_empty (hempty c) (Nat.zero_le _)

theorem State.QueuesOk.effect {seq : Byte} {s t : State} (he : Effect seq s t) (h : s.QueuesOk) : t.QueuesOk := by
  cases he
  case arm n0 t p hn _ _ => exact h.arm hn n0 t p
  case align => exact h.flushed rfl rfl
  case stop => exact h.enterSafe _ _ _
  case clear => exact h.flushed rfl rfl
  case restart =>
    obtain ⟨hqueue, hstaging⟩ := s.restart_queues
    refine (State.queuesOk_iff _).mpr ⟨fun c => ?_, by simp [hstaging]⟩
    rw [hqueue, Six.get_all]
    exact .of_empty rfl (Nat.zero_le _)
  case enable g _ _ => exact queues_gatesFree.enableGroup g h
  all_goals exact h.congr rfl rfl rfl rfl

theorem State.QueuesOk.takeRecord {s : State} (h : s.QueuesOk) (hlive : s.node.state.live = true) (r : Setpoint) :
    (s.takeRecord r).QueuesOk := by
  have hat := s.queuesOk_iff.mp h
  refine (State.queuesOk_iff _).mpr ⟨fun c => ?_, by rw [s.takeRecord_frame r]; exact h.staging⟩
  rw [s.takeRecord_eq r rfl]
  dsimp only
  rw [Six.get_modify]
  split
  · subst c
    rw [hlive]
    exact (hlive ▸ hat.queue r.chan).take r
  · exact hat.queue c

theorem State.QueuesOk.adopt {s : State} (h : s.QueuesOk) (a : Byte) : (s.adopt a).QueuesOk := by
  unfold State.adopt
  split
  · rename_i hn
    exact h.congr rfl rfl (by rw [hn]; rfl) rfl
  · exact h.congr rfl rfl rfl rfl
  all_goals exact h

theorem queues_linkKeeps : LinkKeeps State.QueuesOk where
  relay _ _ _ h := h.congr rfl rfl rfl rfl
  slots s f hf h := (State.queuesOk_iff _).mpr ⟨(s.queuesOk_iff.mp h).queue, hf h.staging⟩
  roll _ _ _ _ h := h.congr rfl rfl rfl rfl
  mgmt _ _ h := h.congr rfl rfl rfl rfl
  count _ _ _ h := h.congr rfl rfl rfl rfl
  waiting _ _ _ h := h.congr rfl rfl rfl rfl
  goodCycle s h := by
    unfold State.goodCycle
    split
    · exact h.congr rfl rfl rfl rfl
    · exact h
  takeRecord _ r hlive h := h.takeRecord hlive r
  adopt _ a _ h := h.adopt a
  decide k seq args s _ := decideKind_keeps (P := State.QueuesOk) (fun _ _ h => h.congr rfl rfl rfl rfl)
    (fun _ _ _ h => h.congr rfl rfl rfl rfl) (fun _ _ _ he h => h.effect he) k seq args s

/-! ### The boundary -/

/-- The boundary of a node in RUN that is not lost: every queue as selected, or all of them flushed. -/
theorem State.QueuesAt.runBoundary {s : State} {now : Word} (h : s.QueuesAt now) (hp : s.timer.period = now + 1)
    (hlive : s.node.state.live = true) : s.runBoundary.QueuesAt (now + 1) := by
  have hselected : State.QueuesAt
      (State.countN { s with queue := s.selections.map Selection.q } .holds (heldCount s.selections)) (now + 1) := by
    refine ⟨fun c => ?_, h.staging⟩
    simp only [State.countN_queue, State.countN_node, Six.get_map, State.selections, Six.get_mapIdx, hp]
    exact (h.queue c).select _ c
  unfold State.runBoundary
  dsimp only
  split
  · exact hselected.enterSafe hlive _ _ _ _
  · exact hselected.congr rfl rfl rfl

/-- The boundary of a node in ARMED or RUN (R35, R51, R52). -/
theorem State.QueuesAt.boundaryWork {s : State} {now : Word} (h : s.QueuesAt now) (hp : s.timer.period = now + 1)
    (hlive : s.node.state.live = true) : s.boundaryWork.QueuesAt (now + 1) := by
  have hloss : State.QueuesAt { s with node := { s.node with loss := s.node.loss + 1 } } now := h.congr rfl rfl rfl
  unfold State.boundaryWork State.lossTest
  dsimp only
  by_cases hlost : imageLossTimeout s.bank.activeImage ≤ s.node.loss + 1
  · have hsafe := State.enterSafe_state { s with node := { s.node with loss := s.node.loss + 1 } } .linkLoss
      (some .linkLoss) none
    rw [if_pos hlive] at hsafe
    rw [if_pos hlost, if_neg (by rw [hsafe]; decide)]
    exact hloss.enterSafe hlive _ _ _ _
  · rw [if_neg hlost, if_pos hlive]
    have hstart := State.startEntry_live { s with node := { s.node with loss := s.node.loss + 1 } }
    have h3 : State.QueuesAt
        { State.startEntry { s with node := { s.node with loss := s.node.loss + 1 } } with
          prot := (State.startEntry { s with node := { s.node with loss := s.node.loss + 1 } }).prot.boundary } now :=
      hloss.congr (State.startEntry_queue _) (by simp) hstart
    split
    · exact h3.runBoundary (by simpa using hp) (hstart.trans hlive)
    · refine ⟨fun c => ?_, h3.staging⟩
      simp only [State.armedBoundary, Six.get_mapIdx, State.startEntry_timer, hp]
      exact (h3.queue c).boundaryArmed _ c

theorem State.enterSafe_period (s : State) (c : SafeCause) (f : Option FaultCause) (k : Option (Fin 6)) :
    (s.enterSafe c f k).timer.period = s.timer.period := by
  unfold State.enterSafe
  dsimp only
  split <;> rfl

/-- The blocks' work at a boundary leaves the period number (R23). -/
theorem State.boundaryWork_period (s : State) : s.boundaryWork.timer.period = s.timer.period := by
  have hkeeps : WorkKeeps fun t => t.timer.period = s.timer.period :=
    { gen := fun _ _ h => h
      loss := fun _ _ h => h
      start := fun t h => by rwa [t.startEntry_timer]
      groups := fun _ _ h => h
      queue := fun _ _ h => h
      count := fun _ _ _ h => h
      safe := fun t c f k _ h => by rwa [t.enterSafe_period]
      drive := fun _ h => h }
  exact hkeeps.boundaryWork rfl

theorem State.QueuesOk.boundary {s : State} (h : s.QueuesOk) : s.boundary.QueuesOk := by
  have hat := s.queuesOk_iff.mp h
  rw [State.queuesOk_iff]
  unfold State.boundary
  extract_lets s1
  have hperiod : s1.timer.period = s.timer.period + 1 := by simp [s1, State.wrapTimer]
  have h1 : s1.QueuesAt s.timer.period := hat.congr (by simp [s1]) (by simp [s1]) (by simp [s1])
  split
  · rename_i hlive
    rw [s1.boundaryWork_period, hperiod]
    exact h1.boundaryWork hperiod hlive
  · rename_i hlive
    refine ⟨fun c => .of_empty ((h1.queue c).empty (by simpa using hlive)) (h1.queue c).hold, h1.staging⟩

theorem State.QueuesOk.completeCheck {s : State} (h : s.QueuesOk) : s.completeCheck.QueuesOk := by
  unfold State.completeCheck
  dsimp only
  split <;> exact h.congr rfl rfl rfl rfl

theorem queues_eventsKeep : EventsKeep State.QueuesOk where
  pins _ _ h := h.congr rfl rfl rfl rfl
  elapse s n h := h.congr (by simp) (by simp) (by simp) (by simp)
  boundary _ _ h := h.boundary
  change _ _ _ _ _ h := h.congr rfl rfl rfl rfl
  deadEnd _ _ _ h := h.congr rfl rfl rfl rfl
  trip s i _ h := queues_gatesFree.detectTrip (fun _ _ _ h => h.congr rfl rfl rfl rfl)
    (fun _ _ _ _ _ h => h.congr rfl rfl rfl rfl) i h
  pinLevel _ _ _ h := h.congr rfl rfl rfl rfl
  episodeEnd _ _ _ h := h.congr rfl rfl rfl rfl
  restore s g _ _ _ h := queues_gatesFree.restoreExpiry g h
  gap _ _ h := h.congr rfl rfl rfl rfl
  check _ _ h := h.completeCheck
  safe _ c f k _ h := h.enterSafe c f k
  power s b _ := by
    refine (State.queuesOk_iff _).mpr ⟨fun c => ?_, List.nodup_nil⟩
    simp only [State.powerOnValues, State.reset, Six.get_all]
    exact .of_empty rfl (Nat.zero_le _)

/-- Settles O60: an arrival keeps the rising order, a boundary takes the record one period ahead and brings the others one
period nearer, and every way out of ARMED and RUN flushes. -/
theorem queuesInvariant : Obligations.QueuesInvariant := fun _ _ =>
  step_keeps queues_linkKeeps queues_eventsKeep

end Sys2Proof.Machine

/-! ## The invariant of the gates (R63, R73, R74) -/

namespace Sys2Proof.Machine

/-! ### Plans have an interval (R63) -/

theorem joinFrom_ne_nil (a : Interval) (l : List Interval) : joinFrom a l ≠ [] := by
  induction l generalizing a with
  | nil => exact List.cons_ne_nil _ _
  | cons b t ih =>
    unfold joinFrom
    split
    · exact ih a
    · exact List.cons_ne_nil _ _

theorem join_ne_nil (l : List Interval) : join l ≠ [] := by
  cases l with
  | nil => exact List.cons_ne_nil _ _
  | cons a t => exact joinFrom_ne_nil a t

theorem fixedPlan_ne_nil (edges : List Interval) (L : Nat) : fixedPlan edges L ≠ [] := by
  unfold fixedPlan
  dsimp only
  split
  · exact List.cons_ne_nil _ _
  · split <;> exact joinFrom_ne_nil _ _

theorem planFor_ne_nil (m : Memory) (c : Fin 6) (L : Nat) (h : Handed) : planFor m c L h ≠ [] := by
  cases h with
  | use onTime phase => exact join_ne_nil _
  | holdOff => exact List.cons_ne_nil _ _
  | nothing =>
    unfold planFor
    dsimp only
    split
    · exact fixedPlan_ne_nil _ _
    · exact List.cons_ne_nil _ _

/-! ### Channels at rest and channels in their plans -/

/-- Outside RUN the pins show OFF (R73). -/
theorem State.visible_rest {s : State} (h : s.node.state ≠ .run) (c : Fin 6) : s.visible c = .off := by
  unfold State.visible
  rw [if_neg fun hrun => h hrun.1]

/-- The Pattern Generator before the pins follow: each channel stands in an interval of its plan, and outside RUN each is as
it was left by the event that ended RUN (R63, R74). -/
structure State.GatesPlaced (s : State) : Prop where
  place : ∀ c, (s.gen.get c).cur < (s.gen.get c).plan.length
  rest : s.node.state ≠ .run → ∀ c, s.gen.get c = (s.gen.get c).quiet

theorem State.GatesOk.placed {s : State} (h : s.GatesOk) : s.GatesPlaced where
  place := h.place
  rest hrun c := by
    obtain ⟨hplan, hclosing, hflag, hcur, hdead⟩ := h.rest hrun c
    have houtput : (s.gen.get c).output = .off := (h.shown c).trans (State.visible_rest hrun c)
    unfold ChannelGen.quiet
    rw [← hcur, ← hdead]
    generalize s.gen.get c = g at *
    cases g
    simp_all [allOff]

namespace State.GatesPlaced

variable {s t : State}

/-- Outside RUN nothing has to follow. -/
theorem gatesOk (h : s.GatesPlaced) (hrun : s.node.state ≠ .run) : s.GatesOk where
  shown c := by
    rw [State.visible_rest hrun, h.rest hrun c]
    rfl
  place := h.place
  rest _ c := by
    rw [h.rest hrun c]
    exact ⟨rfl, rfl, rfl, rfl, rfl⟩

/-- When the pins have followed, the law of the gates holds (R73). -/
theorem drive (h : s.GatesPlaced) : s.drive.GatesOk where
  shown c := by
    rw [State.drive_visible]
    simp [State.drive]
  place c := by simpa [State.drive] using h.place c
  rest hrun c := by
    have hquiet := h.rest hrun c
    simp only [State.drive, Six.get_mapIdx]
    rw [hquiet]
    exact ⟨rfl, rfl, rfl, rfl, rfl⟩

/-- The placing speaks of the Pattern Generator and of RUN alone. -/
theorem congr (h : s.GatesPlaced) (hgen : t.gen = s.gen) (hrun : t.node.state ≠ .run → s.node.state ≠ .run) :
    t.GatesPlaced :=
  ⟨fun c => hgen ▸ h.place c, fun hn c => hgen ▸ h.rest (hrun hn) c⟩

/-- In RUN only the places count. -/
theorem of_run (hrun : t.node.state = .run) (h : ∀ c, (t.gen.get c).cur < (t.gen.get c).plan.length) : t.GatesPlaced :=
  ⟨h, fun hn => absurd hrun hn⟩

end State.GatesPlaced

/-- Quiet channels outside RUN meet the law, whatever else the state holds (R74). -/
theorem State.gatesOk_of_quiet {s : State} (hrun : s.node.state ≠ .run)
    (h : ∀ c, ∃ g : ChannelGen, s.gen.get c = g.quiet) : s.GatesOk := by
  refine State.GatesPlaced.gatesOk ⟨fun c => ?_, fun _ c => ?_⟩ hrun
  · obtain ⟨g, hg⟩ := h c
    rw [hg]
    exact Nat.zero_lt_one
  · obtain ⟨g, hg⟩ := h c
    rw [hg]
    rfl

/-! ### Single operations -/

/-- The law speaks of the Pattern Generator, the node state, the states of the groups and the active image alone. -/
theorem State.GatesOk.congr {s t : State} (h : s.GatesOk) (hgen : t.gen = s.gen)
    (hnode : t.node.state = s.node.state) (hgroups : ∀ g, (t.prot.groups.get g).state = (s.prot.groups.get g).state)
    (himage : t.bank.activeImage = s.bank.activeImage) : t.GatesOk where
  shown c := by
    have hvisible : t.visible c = s.visible c := by
      simp only [State.visible, State.groupState, State.groupOf, himage, hgroups, hgen, hnode]
      congr
    rw [hvisible, hgen]
    exact h.shown c
  place c := hgen ▸ h.place c
  rest hrun c := hgen ▸ h.rest (hnode ▸ hrun) c

/-- A change of other blocks outside RUN, another node state among them. -/
theorem State.GatesOk.idle {s t : State} (h : s.GatesOk) (hgen : t.gen = s.gen) (hs : s.node.state ≠ .run)
    (ht : t.node.state ≠ .run) : t.GatesOk := (h.placed.congr hgen fun _ => hs).gatesOk ht

theorem State.GatesOk.of_enterSafe {s : State} (c : SafeCause) (f : Option FaultCause) (k : Option (Fin 6))
    (hlive : s.node.state.live = true) : (s.enterSafe c f k).GatesOk := by
  rw [s.enterSafe_live c f k hlive]
  refine State.gatesOk_of_quiet (by simp [State.safeFrom]) fun ch => ⟨s.gen.get ch, ?_⟩
  simp only [State.safeFrom, Six.get_map]
  rfl

theorem State.GatesOk.enterSafe {s : State} (h : s.GatesOk) (c : SafeCause) (f : Option FaultCause)
    (k : Option (Fin 6)) : (s.enterSafe c f k).GatesOk := by
  by_cases hlive : s.node.state.live = true
  · exact .of_enterSafe c f k hlive
  · rwa [s.enterSafe_idle c f k (by simpa using hlive)]

theorem State.GatesOk.enableGroup {s : State} (h : s.GatesOk) (g : Fin 2) : (s.enableGroup g).GatesOk := by
  have h1 : (s.modifyGroup g fun x => { x with state := .enabled }).GatesPlaced := h.placed.congr rfl id
  refine State.GatesPlaced.drive ?_
  unfold State.holdUntilEdge
  split
  · refine .of_run ‹_› fun c => ?_
    simp only [Six.get_mapIdx]
    split <;> exact h1.place c
  · exact h1

/-- The gates after RESTART are at rest (R81). -/
theorem State.restart_gatesOk (s : State) : s.restart.GatesOk := by
  refine State.gatesOk_of_quiet (by simp [State.restart, State.toConfig]) fun c => ?_
  refine ⟨{ s.cancelCommit.endJobForRestart.gen.get c with echo := 0xFFFF }, ?_⟩
  simp [State.restart, State.blankEchoes, State.quietGates, ChannelGen.quiet]

theorem State.GatesOk.effect {seq : Byte} {s t : State} (he : Effect seq s t) (h : s.GatesOk) : t.GatesOk := by
  have hlive (hn : s.node.state = .config ∨ s.node.state = .safe) : s.node.state ≠ .run := by
    obtain hn | hn := hn <;> simp [hn]
  cases he
  case write a l _ =>
    obtain ⟨-, hactive, -⟩ := s.bank.setShadow_spec (s.bank.shadowImage.writeAll a l)
    exact h.congr rfl rfl (fun _ => rfl) hactive
  case copy _ => exact h.congr rfl rfl (fun _ => rfl) s.bank.copyActive_spec.2.2.2.2.1
  case loadData a l _ _ =>
    obtain ⟨-, hactive, -⟩ := s.bank.setShadow_spec (s.bank.shadowImage.writeAll a l)
    exact h.congr rfl rfl (fun _ => rfl) hactive
  case group g e _ _ =>
    refine h.congr rfl rfl (fun k => ?_) rfl
    simp only [Two.get_modify]
    split <;> rfl
  case swap hn _ _ => exact h.idle rfl (hlive (.inl hn)) (hlive (.inl hn))
  case arm n0 _ _ hn _ _ =>
    refine State.gatesOk_of_quiet (by simp [State.arm]) fun c => ⟨{ s.gen.get c with echo := 0xFFFF }, ?_⟩
    simp [State.arm, State.blankEchoes, State.quietGates, ChannelGen.quiet]
  case stop hl => exact .of_enterSafe _ _ _ hl
  case clear hn => exact h.idle rfl (hlive (.inr hn)) (by simp [State.toConfig])
  case restart => exact s.restart_gatesOk
  case enable g _ _ => exact h.enableGroup g
  all_goals exact h.congr rfl rfl (fun _ => rfl) rfl

theorem gates_linkKeeps : LinkKeeps State.GatesOk where
  relay _ _ _ h := h.congr rfl rfl (fun _ => rfl) rfl
  slots _ _ _ h := h.congr rfl rfl (fun _ => rfl) rfl
  roll _ _ _ _ h := h.congr rfl rfl (fun _ => rfl) rfl
  mgmt _ _ h := h.congr rfl rfl (fun _ => rfl) rfl
  count _ _ _ h := h.congr rfl rfl (fun _ => rfl) rfl
  waiting _ _ _ h := h.congr rfl rfl (fun _ => rfl) rfl
  goodCycle s h := by
    unfold State.goodCycle
    split
    · exact h.congr rfl rfl (fun _ => rfl) rfl
    · exact h
  takeRecord s r _ h := by
    rw [s.takeRecord_frame r]
    exact h.congr rfl rfl (fun _ => rfl) rfl
  adopt s a _ h := by
    unfold State.adopt
    split
    · exact h.idle rfl (by simp [‹s.node.state = _›]) (by simp)
    · exact h.congr rfl rfl (fun _ => rfl) rfl
    all_goals exact h
  decide k seq args s _ := decideKind_keeps (P := State.GatesOk) (fun _ _ h => h.congr rfl rfl (fun _ => rfl) rfl)
    (fun _ _ _ h => h.congr rfl rfl (fun _ => rfl) rfl) (fun _ _ _ he h => h.effect he) k seq args s

/-! ### The boundary -/

namespace State.GatesPlaced

variable {s : State}

theorem lossTest (h : s.GatesPlaced) : s.lossTest.GatesPlaced := by
  have h1 : State.GatesPlaced { s with node := { s.node with loss := s.node.loss + 1 } } := h.congr rfl id
  unfold State.lossTest
  dsimp only
  split
  · by_cases hlive : s.node.state.live = true
    · exact (State.GatesOk.of_enterSafe (s := { s with node := { s.node with loss := s.node.loss + 1 } })
        _ _ _ hlive).placed
    · rwa [State.enterSafe_idle _ _ _ _ (by simpa using hlive)]
  · exact h1

theorem startEntry (h : s.GatesPlaced) : s.startEntry.GatesPlaced := by
  unfold State.startEntry
  split
  · exact .of_run rfl h.place
  · exact h

/-- A boundary in RUN ends in SAFE or with new plans, whose pins follow (R56, R64). -/
theorem runBoundary (hrun : s.node.state = .run) : s.runBoundary.GatesOk := by
  unfold State.runBoundary
  dsimp only
  split
  · exact .of_enterSafe _ _ _ (by simp [hrun, NodeState.live])
  · refine State.GatesPlaced.drive (.of_run (by simpa using hrun) fun c => ?_)
    simp only [State.countN_gen, Six.get_mapIdx, ChannelGen.start]
    exact List.length_pos_of_ne_nil (planFor_ne_nil _ _ _ _)

theorem boundaryWork (h : s.GatesPlaced) : s.boundaryWork.GatesOk := by
  unfold State.boundaryWork
  dsimp only
  split
  · have h1 := h.lossTest.startEntry
    split
    · exact runBoundary ‹_›
    · exact (h1.congr (t := State.armedBoundary { s.lossTest.startEntry with prot := _ }) rfl id).gatesOk ‹_›
  case isFalse hlive =>
    exact h.lossTest.gatesOk fun hrun => hlive (by rw [hrun]; rfl)

theorem finishPlans (h : s.GatesPlaced) : s.finishPlans.GatesPlaced := by
  unfold State.finishPlans
  split
  · refine .of_run ‹_› fun c => ?_
    have hplace := h.place c
    simp only [Six.get_mapIdx, ChannelGen.finish]
    split
    · dsimp only
      omega
    · exact hplace
  · exact h

theorem boundary (h : s.GatesPlaced) : s.boundary.GatesOk := by
  have h1 : ((s.finishPlans.swapAt (s.timer.period + 1)).wrapTimer).GatesPlaced :=
    h.finishPlans.congr (by simp) (by simp)
  unfold State.boundary
  dsimp only
  split
  · exact h1.boundaryWork
  case isFalse hlive => exact h1.gatesOk fun hrun => hlive (by rw [hrun]; rfl)

end State.GatesPlaced

/-! ### Events -/

theorem State.GatesOk.elapse {s : State} (h : s.GatesOk) (n : Nat) : (s.elapse n).GatesOk where
  shown c := by
    have hgroups (g : Fin 2) : ((s.elapse n).prot.groups.get g).state = (s.prot.groups.get g).state := by
      unfold State.elapse
      split
      · rfl
      · simp only [Two.get_map, ProtGroup.elapse]
        split <;> rfl
    have hvisible : (s.elapse n).visible c = s.visible c := by
      simp only [State.visible, State.groupState, State.groupOf, State.elapse_bank, hgroups, State.elapse_gen,
        State.elapse_node, Option.map_eq_none_iff]
      rfl
    rw [hvisible, s.elapse_gen]
    exact h.shown c
  place c := by
    rw [s.elapse_gen]
    exact h.place c
  rest hrun c := by
    obtain ⟨hplan, hclosing, hflag, hcur, hdead⟩ := h.rest (by simpa using hrun) c
    rw [s.elapse_gen]
    exact ⟨hplan, hclosing, hflag, hcur, by simp [hdead]⟩

theorem State.GatesOk.detectTrip {s : State} (h : s.GatesOk) (i : Fin 4) : (s.detectTrip i).GatesOk := by
  unfold State.detectTrip
  dsimp only
  split
  · refine State.GatesPlaced.drive ?_
    split
    · exact h.placed.congr (by simp) (by simp)
    · exact h.placed.congr (by simp) (by simp)
  · exact h.congr rfl rfl (fun _ => rfl) rfl

theorem State.GatesOk.restoreExpiry {s : State} (h : s.GatesOk) (g : Fin 2) : (s.restoreExpiry g).GatesOk := by
  unfold State.restoreExpiry
  split
  · refine h.congr rfl rfl (fun k => ?_) rfl
    simp only [State.modifyGroup, Two.get_modify]
    split <;> rfl
  · exact h.enableGroup g

/-- A change of one channel's place in its plan, in RUN. -/
theorem State.GatesPlaced.modify {s : State} (h : s.GatesPlaced) (hrun : s.node.state = .run) (c : Fin 6)
    {f : ChannelGen → ChannelGen} (hf : (f (s.gen.get c)).cur < (f (s.gen.get c)).plan.length) :
    State.GatesPlaced { s with gen := s.gen.modify c f } := by
  refine .of_run hrun fun d => ?_
  simp only [Six.get_modify]
  split
  case isTrue hd => exact hd ▸ hf
  case isFalse => exact h.place d

/-- The check's end and the job's end leave the active image. -/
theorem State.completeCheck_gates (s : State) :
    s.completeCheck.gen = s.gen ∧ s.completeCheck.node = s.node ∧ s.completeCheck.prot = s.prot
      ∧ s.completeCheck.bank.activeImage = s.bank.activeImage := by
  unfold State.completeCheck
  dsimp only
  split <;> exact ⟨rfl, rfl, rfl, rfl⟩

theorem gates_eventsKeep : EventsKeep State.GatesOk where
  pins _ _ h := h.congr rfl rfl (fun _ => rfl) rfl
  elapse _ n h := h.elapse n
  boundary _ _ h := h.placed.boundary
  change s c a hrun hnext h := by
    refine (h.placed.modify hrun c ?_).drive
    obtain ⟨x, hx, -⟩ := Option.map_eq_some_iff.mp hnext
    exact (List.getElem?_eq_some_iff.mp hx).1
  deadEnd s c hrun h := (h.placed.modify hrun c (h.place c)).drive
  trip _ i _ h := h.detectTrip i
  pinLevel _ _ _ h := h.congr rfl rfl (fun _ => rfl) rfl
  episodeEnd _ _ _ h := h.congr rfl rfl (fun _ => rfl) rfl
  restore _ g _ _ _ h := h.restoreExpiry g
  gap _ _ h := h.congr rfl rfl (fun _ => rfl) rfl
  check s _ h := by
    obtain ⟨hgen, hnode, hprot, himage⟩ := s.completeCheck_gates
    exact h.congr hgen (by rw [hnode]) (fun _ => by rw [hprot]) himage
  safe _ c f k _ h := h.enterSafe c f k
  power s b _ := by
    refine State.gatesOk_of_quiet (by simp [State.powerOnValues, State.reset, NodeController.powerOn]) fun c => ?_
    refine ⟨.powerOn, ?_⟩
    simp only [State.powerOnValues, State.reset, Six.get_all]
    rfl

/-- Settles O55: every event that touches plan, group or flag ends by driving the pins (`State.drive`), and every event that
leaves RUN quiets the channels, so that nothing has to follow outside RUN. -/
theorem gatesInvariant : Obligations.GatesInvariant :=
  ⟨fun _ _ => step_keeps gates_linkKeeps gates_eventsKeep,
    fun s c => ⟨by simp [State.gateHigh], by simp [State.gateLow]⟩⟩

end Sys2Proof.Machine

/-! ## What RESTART leaves, block by block (R39, R62, R81, R101, R158, R173) -/

namespace Sys2Proof.Machine

/-- The shadow state after RESTART: a pending commit's is EDITABLE again, a load job's as the job's end leaves it. -/
def State.shadowRestarted (s : State) : ShadowState :=
  match s.load.state with
  | .idle => if s.bank.commit = none then s.bank.shadow else .editable
  | .receiving => s.load.shadowAfter
  | .checking => .broken

/-- The Load Engine after RESTART. -/
def LoadJob.restarted (l : LoadJob) : LoadJob :=
  match l.state with
  | .idle => l
  | .receiving => { l with state := .idle, gap := 0 }
  | .checking => { l with state := .idle, checkSeq := none, checkLeft := 0 }

theorem LoadJob.restarted_state (l : LoadJob) : l.restarted.state = .idle := by
  unfold LoadJob.restarted
  split
  · assumption
  · rfl
  · rfl

/-- Every block after RESTART. -/
theorem State.restart_eq (s : State) :
    s.restart =
      { s with
        node := { state := .config, cause := .none, start := none, loss := 0 }
        timer := { tick := 0, len := Config.resetLen, period := 0, trim := none, running := false, wrapDue := false }
        queue := .all .powerOn
        slots := { s.slots with walker := .idle, staging := [] }
        gen := .all .powerOn
        prot := s.prot.clear
        bank := { s.bank with commit := none, shadow := s.shadowRestarted }
        load := s.load.restarted
        counters := .zero
        mgmt := { s.mgmt with cache := [] } } := by
  have hgates (t : State) : t.quietGates.blankEchoes = { t with gen := .all .powerOn } := by
    simp only [State.quietGates, State.blankEchoes]
    congr
  obtain ⟨pins, relay, roll, slots, queue, bank, timer, node, gen, prot, log, counters, mgmt, load, pending, fc⟩ := s
  obtain ⟨a, b, c, d, e, commit⟩ := bank
  obtain ⟨state, _, _, _, _, _, _, _, _, _⟩ := load
  simp only [State.restart, hgates]
  cases state <;> cases commit <;> rfl

end Sys2Proof.Machine

/-! ## The invariant of timer, banks, load job and replay cache -/

namespace Sys2Proof.Machine

/-- The laws of the timer and the node's control values (R22, R26, R37). -/
structure PeriodTimer.Ok (t : PeriodTimer) (n : NodeController) : Prop where
  running : t.running = true ↔ n.state = .armed ∨ n.state = .run ∨ n.state = .safe
  stopped : t.running = false → t.tick = 0 ∧ t.trim = none
  tick : t.tick < t.len
  len : 500 ≤ t.len
  due : t.wrapDue = true → t.running = true ∧ t.tick + 1 = t.len
  trim : t.trim ≠ none → n.state.live = true
  start : n.start ≠ none ↔ n.state = .armed
  cause : n.cause = .none ↔ n.state ≠ .safe

/-- The laws of the banks with the load job, in a node state (R6, R18, R165). -/
structure BankStore.Ok (b : BankStore) (n : NodeState) (l : LoadJob) : Prop where
  valid : n = .armed ∨ n = .run ∨ n = .safe → b.cond = .valid
  active : b.cond = .valid → validate b.activeImage = none
  frozen : b.commit ≠ none ↔ b.shadow = .frozen
  commit : b.commit ≠ none → n.live = true ∧ validate b.shadowImage = none
  loading : l.state = .receiving ↔ b.shadow = .loading
  checking : l.state = .checking ↔ b.shadow = .checking
  prior : l.state ≠ .idle → l.prior = .editable ∨ l.prior = .broken
  job : l.state ≠ .idle → l.next = l.first + l.written ∧ l.written ≤ l.count ∧ l.first + l.count ≤ 7

/-- A cache record is that of a pending commit or of a load job in its check (R15, R170). -/
def CacheRecord.InProgress (x : CacheRecord) (c : Option PendingCommit) (l : LoadJob) : Prop :=
  (x.kind = .commit ∧ ∃ p, c = some p ∧ p.seq = x.seq)
    ∨ (x.kind = .loadEnd ∧ l.state = .checking ∧ l.checkSeq = some x.seq)

/-- The laws of the replay cache with the operations in progress (R155). -/
structure Management.Ok (m : Management) (c : Option PendingCommit) (l : LoadJob) : Prop where
  size : m.cache.length ≤ 4
  seqs : (m.cache.map CacheRecord.seq).Nodup
  data : ∀ x ∈ m.cache, x.data.length ≤ largestData x.kind []
  pending : ∀ x ∈ m.cache, x.status = .pending → x.InProgress c l

/-- The invariant, a law for each of the three. -/
structure State.Control (s : State) : Prop where
  clock : s.timer.Ok s.node
  banks : s.bank.Ok s.node.state s.load
  cache : s.mgmt.Ok s.bank.commit s.load

theorem State.controlOk_iff (s : State) : s.ControlOk ↔ s.Control := by
  constructor
  · intro h
    exact
      { clock := ⟨h.running, h.stopped, h.tick, h.len, h.due, h.trim, h.start, h.cause⟩
        banks := ⟨h.valid, h.active, h.frozen, h.commit, h.loading, h.checking, h.prior, h.job⟩
        cache := ⟨h.cacheSize, h.cacheSeqs, h.cacheData, h.cachePending⟩ }
  · rintro ⟨hclock, hbanks, hcache⟩
    exact
      { running := hclock.running, stopped := hclock.stopped, tick := hclock.tick, len := hclock.len, due := hclock.due
        trim := hclock.trim, start := hclock.start, cause := hclock.cause, valid := hbanks.valid
        active := hbanks.active, frozen := hbanks.frozen, commit := hbanks.commit, loading := hbanks.loading
        checking := hbanks.checking, prior := hbanks.prior, job := hbanks.job, cacheSize := hcache.size
        cacheSeqs := hcache.seqs, cacheData := hcache.data, cachePending := hcache.pending }

/-! ### The timer and the node's control values -/

/-- A bank that passes validation has a period of 500 ticks at least (R11). -/
theorem imageP_of_validate {m : Memory} (h : validate m = none) : 500 ≤ imageP m := by
  have hheader : failureAt (headerChecks m) 0 = none := by
    unfold validate at h
    rw [List.findSome?_eq_none_iff] at h
    exact h _ (List.mem_append_left _ (List.mem_append_left _ List.mem_cons_self))
  by_contra hlow
  have hfails : imageP m < 500 := Nat.lt_of_not_le hlow
  simp [failureAt, headerChecks, firstFailure, hfails] at hheader

/-- L at a boundary is 500 at least (R23). -/
theorem nextLen_ge {p : Nat} (h : 500 ≤ p) (trim : Option Int) : 500 ≤ nextLen p trim := by
  unfold nextLen
  split
  · exact h
  · exact Nat.le_max_left _ _

namespace PeriodTimer.Ok

variable {t : PeriodTimer} {n : NodeController} (h : t.Ok n)
include h

theorem elapse (k : Nat) : (t.elapse k).Ok n := by
  have htick := h.tick
  unfold PeriodTimer.elapse
  split
  · rename_i hrun
    split
    · exact { h with
        stopped := fun hstop => absurd (hrun.1.symm.trans hstop) (by simp)
        tick := by assumption
        due := fun hdue => absurd (hrun.2.symm.trans hdue) (by simp) }
    · exact { h with
        stopped := fun hstop => absurd (hrun.1.symm.trans hstop) (by simp)
        tick := by dsimp only; omega
        due := fun _ => ⟨hrun.1, by dsimp only; omega⟩ }
  · exact h

theorem withLoss (k : Nat) : t.Ok { n with loss := k } := { h with }

theorem arm (hn : n.state = .config) {tick len : Nat} (htick : tick < len) (hlen : 500 ≤ len) (p start : Word) :
    PeriodTimer.Ok { t with tick := tick, len := len, period := p, running := true, wrapDue := false }
      { n with state := .armed, start := some start, loss := 0 } where
  running := by simp
  stopped hstop := by simp at hstop
  tick := htick
  len := hlen
  due hdue := by simp at hdue
  trim _ := rfl
  start := by simp
  cause := by simpa [hn] using h.cause

theorem align (hn : n.state = .armed) {tick len : Nat} (htick : tick < len) (hlen : 500 ≤ len) (p : Word) :
    PeriodTimer.Ok { t with tick := tick, len := len, period := p, trim := none, wrapDue := false } n where
  running := h.running
  stopped hstop := absurd (h.running.mpr (.inl hn)) (by simpa using hstop)
  tick := htick
  len := hlen
  due hdue := by simp at hdue
  trim htrim := by simp at htrim
  start := h.start
  cause := h.cause

theorem withTrim (hn : n.state.live = true) (d : Int) : PeriodTimer.Ok { t with trim := some d } n :=
  { h with
    stopped := fun hstop => by
      obtain hn | hn := (NodeState.live_iff _).mp hn
      · exact absurd (h.running.mpr (.inl hn)) (by simpa using hstop)
      · exact absurd (h.running.mpr (.inr (.inl hn))) (by simpa using hstop)
    trim := fun _ => hn }

theorem enterSafe (hn : n.state.live = true) {c : SafeCause} (hc : c ≠ .none) :
    PeriodTimer.Ok { t with trim := none } { n with state := .safe, cause := c, start := none } where
  running := by
    have hrun : t.running = true := by
      obtain hn | hn := (NodeState.live_iff _).mp hn
      · exact h.running.mpr (.inl hn)
      · exact h.running.mpr (.inr (.inl hn))
    simp [hrun]
  stopped hstop := ⟨(h.stopped hstop).1, rfl⟩
  tick := h.tick
  len := h.len
  due := h.due
  trim htrim := by simp at htrim
  start := by simp
  cause := by simp [hc]

theorem toConfig :
    PeriodTimer.Ok { t with tick := 0, trim := none, running := false, wrapDue := false }
      { state := .config, cause := .none, start := none, loss := 0 } where
  running := by simp
  stopped _ := ⟨rfl, rfl⟩
  tick := Nat.lt_of_lt_of_le (Nat.zero_lt_succ 499) h.len
  len := h.len
  due hdue := by simp at hdue
  trim htrim := by simp at htrim
  start := by simp
  cause := by simp

theorem wrap (hrun : t.running = true) {len : Nat} (hlen : 500 ≤ len) (p : Word) :
    PeriodTimer.Ok { tick := 0, len := len, period := p, trim := none, running := true, wrapDue := false } n where
  running := by simpa [hrun] using h.running
  stopped hstop := by simp at hstop
  tick := Nat.lt_of_lt_of_le (Nat.zero_lt_succ 499) hlen
  len := hlen
  due hdue := by simp at hdue
  trim htrim := by simp at htrim
  start := h.start
  cause := h.cause

/-- The start period comes (R30). -/
theorem started (hn : n.state = .armed) : t.Ok { n with state := .run, start := none } where
  running := by simpa [hn] using h.running
  stopped := h.stopped
  tick := h.tick
  len := h.len
  due := h.due
  trim _ := rfl
  start := by simp
  cause := by simpa [hn] using h.cause

/-- An address is adopted (R130). -/
theorem adopted (hn : n.state = .unaddressed) : t.Ok { n with state := .config } where
  running := by simpa [hn] using h.running
  stopped := h.stopped
  tick := h.tick
  len := h.len
  due := h.due
  trim htrim := absurd (h.trim htrim) (by simp [hn, NodeState.live])
  start := by simpa [hn] using h.start
  cause := by simpa [hn] using h.cause

end PeriodTimer.Ok

/-! ### The banks -/

/-- A load job after ticks: only its counts have moved (R169, R171). -/
theorem LoadJob.elapse_keeps (l : LoadJob) (k : Nat) :
    ∃ gap left, l.elapse k = { l with gap := gap, checkLeft := left } := by
  unfold LoadJob.elapse
  split
  · exact ⟨l.gap, l.checkLeft, rfl⟩
  · exact ⟨l.gap - k, l.checkLeft, rfl⟩
  · exact ⟨l.gap, l.checkLeft - k, rfl⟩

namespace BankStore.Ok

variable {b : BankStore} {n : NodeState} {l : LoadJob} (h : b.Ok n l)
include h

/-- The period of the bank in force is 500 ticks at least (R11). -/
theorem activeP_ge (hc : b.cond = .valid) : 500 ≤ (b.activeImage.readWord 0).toNat :=
  imageP_of_validate (h.active hc)

theorem commit_none (hs : b.shadow ≠ .frozen) : b.commit = none := by
  by_contra hc
  exact hs (h.frozen.mp hc)

theorem elapse (k : Nat) : b.Ok n (l.elapse k) := by
  obtain ⟨gap, left, he⟩ := l.elapse_keeps k
  rw [he]
  exact ⟨h.valid, h.active, h.frozen, h.commit, h.loading, h.checking, h.prior, h.job⟩

/-- Another node state: nothing is asked where no operation runs, and a commit ends with ARMED and RUN. -/
theorem of_state {n' : NodeState} (hv : n' = .armed ∨ n' = .run ∨ n' = .safe → b.cond = .valid)
    (hl : b.commit ≠ none → n'.live = true) : b.Ok n' l :=
  { h with valid := hv, commit := fun hc => ⟨hl hc, (h.commit hc).2⟩ }

/-- New contents or another state of the shadow, with no commit pending and no load job in either state. -/
theorem withShadow {b' : BankStore} {l' : LoadJob} (hcond : b'.cond = b.cond) (hactive : b'.activeImage = b.activeImage)
    (hcommit : b'.commit = none) (hfrozen : b'.shadow ≠ .frozen)
    (hloading : l'.state = .receiving ↔ b'.shadow = .loading) (hchecking : l'.state = .checking ↔ b'.shadow = .checking)
    (hprior : l'.state ≠ .idle → l'.prior = .editable ∨ l'.prior = .broken)
    (hjob : l'.state ≠ .idle → l'.next = l'.first + l'.written ∧ l'.written ≤ l'.count ∧ l'.first + l'.count ≤ 7) :
    b'.Ok n l' where
  valid hn := hcond.trans (h.valid hn)
  active hc := hactive ▸ h.active (hcond ▸ hc)
  frozen := by simp [hcommit, hfrozen]
  commit hc := absurd hcommit hc
  loading := hloading
  checking := hchecking
  prior := hprior
  job := hjob

/-- The same job with new contents of a shadow that no commit holds. -/
theorem withImage {b' : BankStore} (hcond : b'.cond = b.cond) (hactive : b'.activeImage = b.activeImage)
    (hcommit : b'.commit = b.commit) (hshadow : b'.shadow = b.shadow) (hfrozen : b.shadow ≠ .frozen) : b'.Ok n l :=
  h.withShadow hcond hactive (hcommit.trans (h.commit_none hfrozen)) (hshadow ▸ hfrozen) (hshadow ▸ h.loading)
    (hshadow ▸ h.checking) h.prior h.job

/-- An ended job leaves the shadow EDITABLE or BROKEN. -/
theorem ended (hjob : l.state ≠ .idle) {l' : LoadJob} (hl : l'.state = .idle) {x : ShadowState}
    (hx : x = .editable ∨ x = .broken) : BankStore.Ok { b with shadow := x } n l' := by
  have hfrozen : b.shadow ≠ .frozen := by
    intro hf
    cases hl' : l.state with
    | idle => exact hjob hl'
    | receiving => exact absurd (h.loading.mp hl') (by simp [hf])
    | checking => exact absurd (h.checking.mp hl') (by simp [hf])
  refine h.withShadow rfl rfl (h.commit_none hfrozen) ?_ ?_ ?_ (fun hne => absurd hl hne) (fun hne => absurd hl hne)
  · obtain rfl | rfl := hx <;> simp
  · obtain rfl | rfl := hx <;> simp [hl]
  · obtain rfl | rfl := hx <;> simp [hl]

theorem shadowAfter (hjob : l.state ≠ .idle) : l.shadowAfter = .editable ∨ l.shadowAfter = .broken := by
  unfold LoadJob.shadowAfter
  split
  · exact .inr rfl
  · exact h.prior hjob

/-- A swap of a shadow that passed validation (R14, R16). -/
theorem swap (hv : validate b.shadowImage = none) (hl : l.state ≠ .receiving ∧ l.state ≠ .checking) :
    BankStore.Ok { b.swap with commit := none } n l where
  valid _ := rfl
  active _ := by
    have himages := b.swap_images.1
    change validate b.swap.activeImage = none
    rwa [himages]
  frozen := by simp [BankStore.swap]
  commit hc := by simp at hc
  loading := by simp [BankStore.swap, hl.1]
  checking := by simp [BankStore.swap, hl.2]
  prior := h.prior
  job := h.job

/-- A pending commit and a load job exclude each other (R18). -/
theorem job_of_commit (hc : b.commit ≠ none) : l.state ≠ .receiving ∧ l.state ≠ .checking := by
  have hf := h.frozen.mp hc
  exact ⟨fun hl => by simp [h.loading.mp hl] at hf, fun hl => by simp [h.checking.mp hl] at hf⟩

/-- A commit cancelled (R19). -/
theorem cancelled (hc : b.commit ≠ none) : BankStore.Ok { b with commit := none, shadow := .editable } n l := by
  obtain ⟨hr, hk⟩ := h.job_of_commit hc
  exact h.withShadow rfl rfl rfl (by simp) (by simp [hr]) (by simp [hk]) h.prior h.job

end BankStore.Ok

/-! ### The replay cache -/

theorem dropOldestSettled_sublist (l : List CacheRecord) : (dropOldestSettled l).Sublist l := by
  induction l with
  | nil => exact .slnil
  | cons r t ih =>
    unfold dropOldestSettled
    split
    · exact ih.cons_cons r
    · exact List.sublist_cons_self r t

theorem dropOldestSettled_length {l : List CacheRecord} (h : ∃ x ∈ l, x.status ≠ .pending) :
    (dropOldestSettled l).length + 1 = l.length := by
  induction l with
  | nil => simp at h
  | cons r t ih =>
    unfold dropOldestSettled
    split
    · rename_i hr
      obtain ⟨x, hx, hs⟩ := h
      obtain rfl | hx := List.mem_cons.mp hx
      · exact absurd hr hs
      · simp [ih ⟨x, hx, hs⟩]
    · rfl

namespace Management.Ok

variable {m : Management} {c : Option PendingCommit} {l : LoadJob} (h : m.Ok c l)
include h

/-- Fewer records. -/
theorem sublist {m' : Management} (hs : m'.cache.Sublist m.cache) : m'.Ok c l where
  size := hs.length_le.trans h.size
  seqs := h.seqs.sublist (hs.map _)
  data x hx := h.data x (hs.subset hx)
  pending x hx := h.pending x (hs.subset hx)

/-- At most two operations are in progress, so a full cache holds a settled record. -/
theorem exists_settled (hfull : 3 ≤ m.cache.length) : ∃ x ∈ m.cache, x.status ≠ .pending := by
  by_contra hall
  push Not at hall
  have hsub : m.cache.map CacheRecord.seq ⊆ (c.map PendingCommit.seq).toList ++ l.checkSeq.toList := by
    intro q hq
    obtain ⟨x, hx, rfl⟩ := List.mem_map.mp hq
    obtain ⟨-, p, hp, hseq⟩ | ⟨-, -, hseq⟩ := h.pending x hx (hall x hx)
    · simp [hp, hseq]
    · simp [hseq]
  have hlen := (h.seqs.subperm hsub).length_le
  have hcommit : (c.map PendingCommit.seq).toList.length ≤ 1 := by cases c <;> simp
  have hcheck : l.checkSeq.toList.length ≤ 1 := by cases l.checkSeq <;> simp
  simp only [List.length_map, List.length_append] at hlen
  omega

/-- Room for a record of a sequence: at most three records, none of that sequence (R156). -/
theorem makeRoom (seq : Byte) :
    (m.makeRoom seq).Ok c l ∧ (m.makeRoom seq).cache.length ≤ 3 ∧ seq ∉ (m.makeRoom seq).cache.map CacheRecord.seq := by
  have hsize := h.size
  unfold Management.makeRoom
  by_cases hany : m.cache.any fun r => decide (r.seq = seq)
  · simp only [hany, if_true]
    refine ⟨h.sublist List.filter_sublist, ?_, by simp⟩
    obtain ⟨x, hx, hseq⟩ := List.any_eq_true.mp hany
    have hlt : (m.cache.filter fun r => decide (r.seq ≠ seq)).length < m.cache.length :=
      List.length_filter_lt_length_iff_exists.mpr ⟨x, hx, by simpa using hseq⟩
    omega
  · have hfresh : seq ∉ m.cache.map CacheRecord.seq := by
      intro hmem
      obtain ⟨x, hx, hseq⟩ := List.mem_map.mp hmem
      exact hany (List.any_eq_true.mpr ⟨x, hx, by simpa using hseq⟩)
    simp only [hany]
    split
    · contradiction
    split
    · exact ⟨h, by omega, hfresh⟩
    · have hdrop := dropOldestSettled_sublist m.cache
      have hlen := dropOldestSettled_length (h.exists_settled (by omega))
      exact ⟨h.sublist hdrop, by omega, fun hmem => hfresh ((hdrop.map _).subset hmem)⟩

theorem insert {r : CacheRecord} (hlen : m.cache.length ≤ 3) (hfresh : r.seq ∉ m.cache.map CacheRecord.seq)
    (hdata : r.data.length ≤ largestData r.kind []) (hpending : r.status = .pending → r.InProgress c l) :
    (m.insert r).Ok c l where
  size := by simp only [Management.insert, List.length_append, List.length_singleton]; omega
  seqs := by
    simp only [Management.insert, List.map_append, List.map_singleton, List.nodup_append]
    refine ⟨h.seqs, by simp, fun a ha b hb => ?_⟩
    obtain rfl := List.mem_singleton.mp hb
    exact fun hab => hfresh (hab ▸ ha)
  data x hx := by
    obtain hx | hx := List.mem_append.mp hx
    · exact h.data x hx
    · obtain rfl := List.mem_singleton.mp hx
      exact hdata
  pending x hx := by
    obtain hx | hx := List.mem_append.mp hx
    · exact h.pending x hx
    · obtain rfl := List.mem_singleton.mp hx
      exact hpending

/-- The completion of a record when its operation ends (R157): what is still PENDING belongs to an operation that goes on. -/
theorem complete {seq : Byte} {k : ReqKind} {st : Status} {data : List Byte} {c' : Option PendingCommit} {l' : LoadJob}
    (hst : st ≠ .pending) (hdata : data.length ≤ largestData k [])
    (hrest : ∀ x ∈ m.cache, x.status = .pending → ¬ (x.seq = seq ∧ x.kind = k) → x.InProgress c' l') :
    (m.complete seq k st data).Ok c' l' where
  size := by simpa [Management.complete] using h.size
  seqs := by
    have hmap : (m.complete seq k st data).cache.map CacheRecord.seq = m.cache.map CacheRecord.seq := by
      simp only [Management.complete, List.map_map]
      refine List.map_congr_left fun x _ => ?_
      simp only [Function.comp_apply]
      split <;> rfl
    exact hmap ▸ h.seqs
  data x hx := by
    obtain ⟨y, hy, rfl⟩ := List.mem_map.mp hx
    split
    · rename_i hdone
      exact hdone.2.1 ▸ hdata
    · exact h.data y hy
  pending x hx hp := by
    obtain ⟨y, hy, rfl⟩ := List.mem_map.mp hx
    split at hp
    · exact absurd hp hst
    · rename_i hnot
      rw [if_neg hnot]
      exact hrest y hy hp fun hk => hnot ⟨hk.1, hk.2, hp⟩

/-- The end of a pending commit, carried out or cancelled (R16, R19). -/
theorem commitEnded {p : PendingCommit} (hc : c = some p) {st : Status} (hst : st ≠ .pending) :
    (m.complete p.seq .commit st []).Ok none l := by
  refine h.complete hst (Nat.zero_le _) fun x hx hp hnot => ?_
  obtain ⟨hk, q, hq, hseq⟩ | hload := h.pending x hx hp
  · obtain rfl : p = q := Option.some.inj (hc.symm.trans hq)
    exact absurd ⟨hseq.symm, hk⟩ hnot
  · exact .inr hload

/-- Without a check in progress nothing is asked of the load job. -/
theorem of_load (hl : l.state ≠ .checking) (l' : LoadJob) : m.Ok c l' :=
  { h with
    pending := fun x hx hp => by
      obtain hcommit | ⟨-, hload, -⟩ := h.pending x hx hp
      · exact .inl hcommit
      · exact absurd hload hl }

theorem elapse (k : Nat) : m.Ok c (l.elapse k) := by
  obtain ⟨gap, left, he⟩ := l.elapse_keeps k
  rw [he]
  exact ⟨h.size, h.seqs, h.data, h.pending⟩

end Management.Ok

/-! ### What owners answer -/

/-- An answer at once, with data of at most `n` bytes. -/
def Answer.Settled (a : Answer) (n : Nat) : Prop := a.status ≠ .pending ∧ a.data.length ≤ n

theorem commitData_length (seq : Byte) (args : List Byte) (s : State) : (ownCommit seq args s).data.length ≤ 2 := by
  unfold ownCommit commitConfig commitLive
  (repeat' split) <;> simp [answer, failureData]

/-- A COMMIT answers PENDING only with its pending commit recorded (R15). -/
theorem ownCommit_pending {seq : Byte} {args : List Byte} {s : State} (h : (ownCommit seq args s).status = .pending) :
    ∃ p, (ownCommit seq args s).st.bank.commit = some p ∧ p.seq = seq := by
  revert h
  unfold ownCommit commitConfig commitLive
  (repeat' split) <;> simp [answer]

/-- A LOAD END answers PENDING only with its check begun (R170). -/
theorem ownLoadEnd_pending {seq : Byte} {s : State} (h : (ownLoadEnd seq s).status = .pending) :
    (ownLoadEnd seq s).st.load.state = .checking ∧ (ownLoadEnd seq s).st.load.checkSeq = some seq := by
  revert h
  unfold ownLoadEnd
  (repeat' split) <;> simp [answer]

/-- The other cached kinds answer at once; the data fits the kind (R150 test 3). -/
theorem own_settled {k : ReqKind} (hk : k.cached = true) (hc : k ≠ .commit) (hl : k ≠ .loadEnd) (seq : Byte)
    (args : List Byte) (s : State) : (own k seq args s).Settled (largestData k []) := by
  cases k
  case writeEntry =>
    simp only [own, ownWriteEntry, writeBank, writeTripInput, writeGroup, writeNode, Answer.Settled]
    (repeat' split) <;> simp [answer]
  case copyActive => simp only [own, ownCopyActive, Answer.Settled]; split <;> simp [answer]
  case arm => simp only [own, ownArm, Answer.Settled]; (repeat' split) <;> simp [answer, largestData]
  case align => simp only [own, ownAlign, Answer.Settled]; (repeat' split) <;> simp [answer]
  case trim => simp only [own, ownTrim, Answer.Settled]; (repeat' split) <;> simp [answer, largestData]
  case stop => simp only [own, ownStop, Answer.Settled]; (repeat' split) <;> simp [answer]
  case clear => simp only [own, ownClear, Answer.Settled]; split <;> simp [answer]
  case tripAck => simp only [own, ownTripAck, Answer.Settled]; (repeat' split) <;> simp [answer]
  case faultPop => simp only [own, ownFaultPop, Answer.Settled]; (repeat' split) <;> simp [answer, largestData]
  case countersClear => exact ⟨by simp [own, ownCountersClear, answer], Nat.zero_le _⟩
  case loadBegin => simp only [own, ownLoadBegin, Answer.Settled]; (repeat' split) <;> simp [answer]
  case loadData => simp only [own, ownLoadData, Answer.Settled]; (repeat' split) <;> simp [answer, largestData]
  case loadCancel => simp only [own, ownLoadCancel, Answer.Settled]; split <;> simp [answer]
  case commit => exact absurd rfl hc
  case loadEnd => exact absurd rfl hl
  all_goals cases hk

theorem ownLoadEnd_data_length (seq : Byte) (s : State) : (ownLoadEnd seq s).data.length ≤ 2 := by
  unfold ownLoadEnd
  (repeat' split) <;> simp [answer]

/-- The record of a decided request fits the cache law. -/
theorem decideNew_record {k : ReqKind} (hk : k.cached = true) (seq : Byte) (args : List Byte) (s : State) :
    (decideNew k seq args s).data.length ≤ largestData k []
      ∧ ((decideNew k seq args s).status = .pending →
          (CacheRecord.mk seq k .pending []).InProgress (decideNew k seq args s).st.bank.commit
            (decideNew k seq args s).st.load) := by
  unfold decideNew
  split
  case isFalse => exact ⟨Nat.zero_le _, fun hp => by cases hp⟩
  by_cases hc : k = .commit
  · subst hc
    exact ⟨commitData_length _ _ _, fun hp => .inl ⟨rfl, ownCommit_pending hp⟩⟩
  by_cases hl : k = .loadEnd
  · subst hl
    exact ⟨ownLoadEnd_data_length _ _, fun hp => .inr ⟨rfl, ownLoadEnd_pending hp⟩⟩
  have hs := own_settled hk hc hl seq args s
  exact ⟨hs.2, fun hp => absurd hp hs.1⟩

end Sys2Proof.Machine

/-! ## Timer, banks, load job and replay cache: every step keeps their laws -/

namespace Sys2Proof.Machine

/-- Of bank and engine an entry into SAFE cancels a pending commit (R19). -/
theorem State.safeFrom_commit (s : State) (c : SafeCause) :
    (s.safeFrom c).bank = s.cancelCommit.bank ∧ (s.safeFrom c).mgmt = s.cancelCommit.mgmt := by
  obtain ⟨pins, relay, roll, slots, queue, bank, timer, node, gen, prot, log, counters, mgmt, load, pending, fc⟩ := s
  obtain ⟨a, b, d, e, f, commit⟩ := bank
  cases commit with
  | none => simp [State.safeFrom, State.cancelCommit]
  | some p =>
    refine ⟨rfl, ?_⟩
    simp only [State.safeFrom, State.cancelCommit, Management.complete, Option.any_some, decide_eq_true_eq]

theorem State.cancelCommit_bank (s : State) :
    s.cancelCommit.bank.commit = none ∧ s.cancelCommit.bank.cond = s.bank.cond := by
  unfold State.cancelCommit
  split
  · exact ⟨by assumption, rfl⟩
  · exact ⟨rfl, rfl⟩

namespace State.Control

variable {s t : State} (h : s.Control)
include h

/-- The laws speak of timer, node control, banks, load job and replay cache alone. -/
theorem congr (ht : t.timer = s.timer) (hn : t.node = s.node) (hb : t.bank = s.bank) (hl : t.load = s.load)
    (hm : t.mgmt.cache = s.mgmt.cache) : t.Control where
  clock := by rw [ht, hn]; exact h.clock
  banks := by rw [hn, hb, hl]; exact h.banks
  cache := by
    rw [hb, hl]
    exact h.cache.sublist (hm ▸ List.Sublist.refl _)

theorem valid_of_live (hlive : s.node.state.live = true) : s.bank.cond = .valid := by
  obtain hn | hn := (NodeState.live_iff _).mp hlive
  · exact h.banks.valid (.inl hn)
  · exact h.banks.valid (.inr (.inl hn))

theorem cancelCommit : s.cancelCommit.Control := by
  unfold State.cancelCommit
  split
  · exact h
  · rename_i p hp
    exact ⟨h.clock, h.banks.cancelled (by simp [hp]), h.cache.commitEnded hp (by simp)⟩

theorem enterSafe {c : SafeCause} (hc : c ≠ .none) (f : Option FaultCause) (k : Option (Fin 6)) :
    (s.enterSafe c f k).Control := by
  by_cases hlive : s.node.state.live = true
  case neg => rwa [s.enterSafe_idle c f k (by simpa using hlive)]
  obtain ⟨hbank, hmgmt⟩ := s.safeFrom_commit c
  obtain ⟨hcommit, hcond⟩ := s.cancelCommit_bank
  have hload : s.cancelCommit.load = s.load := by simp
  rw [s.enterSafe_live c f k hlive]
  refine ⟨h.clock.enterSafe hlive hc, ?_, ?_⟩
  · show (s.safeFrom c).bank.Ok .safe s.load
    rw [hbank, ← hload]
    exact h.cancelCommit.banks.of_state (fun _ => hcond.trans (h.valid_of_live hlive)) fun hne => absurd hcommit hne
  · show (s.safeFrom c).mgmt.Ok (s.safeFrom c).bank.commit s.load
    rw [hbank, hmgmt, ← hload]
    exact h.cancelCommit.cache

/-- The swap of a pending commit at the boundary into its swap period (R16). -/
theorem swapAt (p : Word) : (s.swapAt p).Control := by
  unfold State.swapAt
  split
  · exact h
  · rename_i q hq
    have hne : s.bank.commit ≠ none := by simp [hq]
    split
    · exact ⟨h.clock, h.banks.swap (h.banks.commit hne).2 (h.banks.job_of_commit hne), h.cache.commitEnded hq (by simp)⟩
    · exact h

theorem toConfig (hc : s.bank.commit = none) : s.toConfig.Control :=
  ⟨h.clock.toConfig, h.banks.of_state (by simp [State.toConfig]) fun hne => absurd hc hne, h.cache⟩

/-- A job ends without a check. -/
theorem endJob (hjob : s.load.state = .receiving) : s.endJob.Control :=
  ⟨h.clock, h.banks.ended (by simp [hjob]) rfl (h.banks.shadowAfter (by simp [hjob])),
    h.cache.of_load (by simp [hjob]) _⟩

theorem countN (id : CounterId) (n : Nat) : (s.countN id n).Control := h.congr rfl rfl rfl rfl rfl

theorem restart : s.restart.Control := by
  rw [s.restart_eq]
  refine ⟨?_, ?_, ⟨Nat.zero_le _, List.nodup_nil, by simp, by simp⟩⟩
  · have hclock := h.clock.toConfig
    exact ⟨hclock.running, hclock.stopped, Nat.zero_lt_succ 499, Nat.le_refl 500, (fun hd => by cases hd), hclock.trim,
      hclock.start, hclock.cause⟩
  · have hidle : s.load.restarted.state = .idle := s.load.restarted_state
    have hshadow : s.shadowRestarted = .editable ∨ s.shadowRestarted = .broken := by
      unfold State.shadowRestarted
      split
      · rename_i hl
        split
        · rename_i hc
          cases hs : s.bank.shadow with
          | editable => exact .inl rfl
          | broken => exact .inr rfl
          | loading => exact absurd (h.banks.loading.mpr hs) (by simp [hl])
          | checking => exact absurd (h.banks.checking.mpr hs) (by simp [hl])
          | frozen => exact absurd hc (h.banks.frozen.mpr hs)
        · exact .inl rfl
      · exact h.banks.shadowAfter (by simp [*])
      · exact .inr rfl
    exact
      { valid := by simp
        active := h.banks.active
        frozen := by obtain hs | hs := hshadow <;> simp [hs]
        commit := by simp
        loading := by obtain hs | hs := hshadow <;> simp [hs, hidle]
        checking := by obtain hs | hs := hshadow <;> simp [hs, hidle]
        prior := fun hne => absurd hidle hne
        job := fun hne => absurd hidle hne }

theorem activeP_ge (hc : s.bank.cond = .valid) : 500 ≤ s.activeP := h.banks.activeP_ge hc

/-- New contents of a shadow that no commit holds. -/
theorem withImage {b : BankStore} (m : Memory) (hb : b = s.bank.setShadow m) (hf : s.bank.shadow ≠ .frozen) :
    State.Control { s with bank := b } := by
  obtain ⟨-, hactive, -, hcond, hshadow, hcommit⟩ := s.bank.setShadow_spec m
  subst hb
  exact ⟨h.clock, h.banks.withImage hcond hactive hcommit hshadow hf, by dsimp only; rw [hcommit]; exact h.cache⟩

theorem copy (hs : s.bank.shadow = .editable ∨ s.bank.shadow = .broken) :
    State.Control { s with bank := s.bank.copyActive } := by
  obtain ⟨-, hcond, hshadow, hcommit, hactive, -⟩ := s.bank.copyActive_spec
  have hnone : s.bank.commit = none := h.banks.commit_none (by obtain hs | hs := hs <;> simp [hs])
  have hr : s.load.state ≠ .receiving := fun hl => by simp [h.banks.loading.mp hl] at hs
  have hk : s.load.state ≠ .checking := fun hl => by simp [h.banks.checking.mp hl] at hs
  refine ⟨h.clock, h.banks.withShadow hcond hactive (hcommit.trans hnone) ?_ ?_ ?_ h.banks.prior h.banks.job, ?_⟩
  · simp [hshadow]
  · simp [hshadow, hr]
  · simp [hshadow, hk]
  · dsimp only
    rw [hcommit]
    exact h.cache

theorem arm (hn : s.node.state = .config) (hc : s.bank.cond = .valid) (n0 : Word) {tick : Nat} (ht : tick < s.activeP)
    (start : Word) : (s.arm n0 tick start).Control :=
  ⟨h.clock.arm hn ht (h.activeP_ge hc) n0 start, h.banks.of_state (fun _ => hc) (fun _ => rfl), h.cache⟩

theorem align (hn : s.node.state = .armed) (n : Word) {tick : Nat} (ht : tick < s.activeP) :
    State.Control { s.flush with
      timer := { s.timer with tick := tick, len := s.activeP, period := n, trim := none, wrapDue := false } } :=
  ⟨h.clock.align hn ht (h.activeP_ge (h.banks.valid (.inl hn))) n, h.banks, h.cache⟩

theorem freeze (p : Word) (seq : Byte) (hn : s.node.state.live = true) (hc : s.bank.commit = none)
    (hs : s.bank.shadow = .editable ∨ s.bank.shadow = .frozen) (hv : validate s.bank.shadowImage = none) :
    State.Control { s with bank := { s.bank with shadow := .frozen, commit := some ⟨p, seq⟩ } } := by
  have hr : s.load.state ≠ .receiving := fun hl => by simp [h.banks.loading.mp hl] at hs
  have hk : s.load.state ≠ .checking := fun hl => by simp [h.banks.checking.mp hl] at hs
  refine ⟨h.clock, ?_, ?_⟩
  · exact
      { valid := h.banks.valid
        active := h.banks.active
        frozen := by simp
        commit := fun _ => ⟨hn, hv⟩
        loading := by simp [hr]
        checking := by simp [hk]
        prior := h.banks.prior
        job := h.banks.job }
  · refine { h.cache with pending := fun x hx hp => ?_ }
    obtain ⟨-, q, hq, -⟩ | hload := h.cache.pending x hx hp
    · exact absurd (hc.symm.trans hq) (by simp)
    · exact .inr hload

theorem loadBegin (first count : Nat) (sum : Word) (hl : s.load.state = .idle) (hs : s.bank.shadow ≠ .frozen)
    (hr : first + count ≤ 7) :
    State.Control { s with
      load :=
        { state := .receiving, first := first, count := count, next := first, checksum := sum, written := 0,
          prior := s.bank.shadow, gap := Config.gapTicks, checkSeq := none, checkLeft := 0 }
      bank := { s.bank with shadow := .loading } } := by
  refine ⟨h.clock, h.banks.withShadow rfl rfl (h.banks.commit_none hs) (by simp) (by simp) (by simp) ?_ ?_,
    h.cache.of_load (by simp [hl]) _⟩
  · intro _
    cases hb : s.bank.shadow with
    | editable => exact .inl rfl
    | broken => exact .inr rfl
    | loading => exact absurd (h.banks.loading.mpr hb) (by simp [hl])
    | checking => exact absurd (h.banks.checking.mpr hb) (by simp [hl])
    | frozen => exact absurd hb hs
  · exact fun _ => ⟨rfl, Nat.zero_le _, hr⟩

theorem loadData (a : Nat) (l : List Byte) (hl : s.load.state = .receiving)
    (hnext : s.load.next < s.load.first + s.load.count) :
    State.Control { s with
      bank := s.bank.setShadow (s.bank.shadowImage.writeAll a l)
      load := { s.load with next := s.load.next + 1, written := s.load.written + 1, gap := Config.gapTicks } } := by
  have hloading := h.banks.loading.mp hl
  obtain ⟨hn, hw, hr⟩ := h.banks.job (by simp [hl])
  obtain ⟨hclock, hbanks, hcache⟩ := h.withImage (s.bank.shadowImage.writeAll a l) rfl (by simp [hloading])
  refine ⟨hclock, ?_, hcache.of_load (by simp [hl]) _⟩
  exact { hbanks with job := fun _ => ⟨by dsimp only; omega, by dsimp only; omega, hr⟩ }

theorem loadEnd (seq : Byte) (hl : s.load.state = .receiving) :
    State.Control { s with
      load := { s.load with state := .checking, gap := 0, checkSeq := some seq, checkLeft := Config.checkTicks }
      bank := { s.bank with shadow := .checking } } := by
  have hloading := h.banks.loading.mp hl
  have hjob : s.load.state ≠ .idle := by simp [hl]
  exact ⟨h.clock, h.banks.withShadow rfl rfl (h.banks.commit_none (by simp [hloading])) (by simp) (by simp) (by simp)
    (fun _ => h.banks.prior hjob) (fun _ => h.banks.job hjob), h.cache.of_load (by simp [hl]) _⟩

end State.Control

theorem control_gatesFree : GatesFree State.Control where
  gen _ _ h := h.congr rfl rfl rfl rfl rfl
  prot _ _ h := h.congr rfl rfl rfl rfl rfl

theorem State.Control.effect {s t : State} (h : s.Control) {seq : Byte} (he : Effect seq s t) : t.Control := by
  cases he
  case same => exact h
  case write a l hs => exact h.withImage _ rfl (by obtain hs | hs := hs <;> simp [hs])
  case copy hs => exact h.copy hs
  case swap hn hs hv =>
    have hcommit : s.bank.commit = none := h.banks.commit_none (by simp [hs])
    have hr : s.load.state ≠ .receiving := fun hl => by simp [h.banks.loading.mp hl] at hs
    have hk : s.load.state ≠ .checking := fun hl => by simp [h.banks.checking.mp hl] at hs
    have hbank : s.bank.swap = { s.bank.swap with commit := none } := by rw [← hcommit]; rfl
    rw [hbank]
    exact ⟨h.clock, h.banks.swap hv ⟨hr, hk⟩, hcommit ▸ h.cache⟩
  case freeze p hn hc hs hv => exact h.freeze p seq hn hc hs hv
  case arm n0 tick start hn hc ht => exact h.arm hn hc n0 ht start
  case align n tick hn ht => exact h.align hn n ht
  case trim d hn => exact ⟨h.clock.withTrim hn d, h.banks, h.cache⟩
  case stop => exact h.enterSafe (by simp) _ _
  case clear hn =>
    have hcommit : s.bank.commit = none := by
      by_contra hc
      exact absurd (h.banks.commit hc).1 (by simp [hn, NodeState.live])
    exact (h.toConfig hcommit).congr rfl rfl rfl rfl rfl
  case restart => exact h.restart
  case enable g _ _ => exact control_gatesFree.enableGroup g h
  case loadBegin first count sum hl hs hr => exact h.loadBegin first count sum hl hs hr
  case loadData a l hl hnext => exact h.loadData a l hl hnext
  case loadEnd hl => exact h.loadEnd seq hl
  case cancel hl => exact h.endJob hl
  case abort hl => exact (h.endJob hl).countN _ _
  all_goals exact h.congr rfl rfl rfl rfl rfl

/-- An owner's effect adds no record to the replay cache. -/
theorem Effect.cache_seqs {seq : Byte} {s t : State} (he : Effect seq s t) :
    t.mgmt.cache.map CacheRecord.seq = s.mgmt.cache.map CacheRecord.seq ∨ t.mgmt.cache = [] := by
  cases he
  case stop hlive =>
    left
    rw [s.enterSafe_live _ _ _ hlive]
    show ((s.safeFrom .stop).mgmt.cache).map _ = _
    simp only [State.safeFrom, List.map_map]
    refine List.map_congr_left fun x _ => ?_
    simp only [Function.comp_apply]
    split <;> rfl
  case restart => exact .inr rfl
  case enable => exact .inl (by simp [State.enableGroup])
  all_goals exact .inl rfl

theorem State.Control.decide {s : State} (h : s.Control) (k : ReqKind) (seq : Byte) (args : List Byte) :
    (decideKind k seq args s).1.st.Control := by
  unfold decideKind
  split
  case isFalse => exact h.effect (decideNew_effect seq args s k)
  case isTrue hk =>
    split
    · exact h.countN _ _
    · obtain ⟨hroom, hlen, hfresh⟩ := h.cache.makeRoom seq
      have h1 : State.Control { s with mgmt := s.mgmt.makeRoom seq } := ⟨h.clock, h.banks, hroom⟩
      have heffect := decideNew_effect seq args { s with mgmt := s.mgmt.makeRoom seq } k
      obtain ⟨hdata, hpending⟩ := decideNew_record hk seq args { s with mgmt := s.mgmt.makeRoom seq }
      obtain ⟨hclock, hbanks, hcache⟩ := h1.effect heffect
      refine ⟨hclock, hbanks, hcache.insert ?_ ?_ hdata hpending⟩
      · obtain hseqs | hnil := heffect.cache_seqs
        · have hlength := congrArg List.length hseqs
          simp only [List.length_map] at hlength
          omega
        · simp [hnil]
      · obtain hseqs | hnil := heffect.cache_seqs
        · exact hseqs ▸ hfresh
        · simp [hnil]

theorem control_linkKeeps : LinkKeeps State.Control where
  relay _ _ _ h := h.congr rfl rfl rfl rfl rfl
  slots _ _ _ h := h.congr rfl rfl rfl rfl rfl
  roll _ _ _ _ h := h.congr rfl rfl rfl rfl rfl
  mgmt _ _ h := h.congr rfl rfl rfl rfl rfl
  count _ id n h := h.countN id n
  waiting _ _ _ h := h.congr rfl rfl rfl rfl rfl
  goodCycle s h := by
    unfold State.goodCycle
    split
    · exact ⟨h.clock.withLoss 0, h.banks, h.cache⟩
    · exact h
  takeRecord s r _ h := by
    rw [s.takeRecord_frame r]
    exact h.congr rfl rfl rfl rfl rfl
  adopt s a _ h := by
    unfold State.adopt
    split
    · rename_i hn
      refine ⟨h.clock.adopted hn, h.banks.of_state (by simp) fun hc => ?_, h.cache⟩
      exact absurd (h.banks.commit hc).1 (by simp [hn, NodeState.live])
    all_goals exact h.congr rfl rfl rfl rfl rfl
  decide k seq args s _ h := h.decide k seq args

/-- The laws while the timer runs, as every operation of a boundary keeps them. -/
theorem control_boundaryKeeps : BoundaryKeeps fun s => s.Control ∧ s.timer.running = true where
  gen _ _ h := ⟨h.1.congr rfl rfl rfl rfl rfl, h.2⟩
  loss _ _ h := ⟨⟨h.1.clock.withLoss _, h.1.banks, h.1.cache⟩, h.2⟩
  start s h := by
    obtain ⟨h, hrun⟩ := h
    unfold State.startEntry
    split
    · rename_i hn
      exact ⟨⟨h.clock.started hn.1, h.banks.of_state (fun _ => h.banks.valid (.inl hn.1)) fun _ => rfl, h.cache⟩, hrun⟩
    · exact ⟨h, hrun⟩
  groups _ _ h := ⟨h.1.congr rfl rfl rfl rfl rfl, h.2⟩
  queue _ _ h := ⟨h.1.congr rfl rfl rfl rfl rfl, h.2⟩
  count _ id n h := ⟨h.1.countN id n, h.2⟩
  safe s c f k hc h := by
    refine ⟨h.1.enterSafe hc f k, ?_⟩
    by_cases hlive : s.node.state.live = true
    · rw [s.enterSafe_live c f k hlive]
      exact h.2
    · rw [s.enterSafe_idle c f k (by simpa using hlive)]
      exact h.2
  drive _ h := ⟨h.1.congr rfl rfl rfl rfl rfl, h.2⟩
  swap s p h := ⟨h.1.swapAt p, by simpa using h.2⟩
  wrap s h := by
    obtain ⟨h, hrun⟩ := h
    have hvalid := h.banks.valid (h.clock.running.mp hrun)
    exact ⟨⟨h.clock.wrap hrun (nextLen_ge (h.activeP_ge hvalid) _) _, h.banks, h.cache⟩, rfl⟩

theorem State.Control.elapse {s : State} (h : s.Control) (n : Nat) : (s.elapse n).Control := by
  unfold State.elapse
  split
  · exact h
  · exact ⟨h.clock.elapse n, h.banks.elapse n, h.cache.elapse n⟩

/-- The end of a load job's check (R157, R171). -/
theorem State.Control.completeCheck {s : State} (h : s.Control) (hk : s.load.state = .checking) :
    s.completeCheck.Control := by
  have hcache (st : Status) (data : List Byte) (l' : LoadJob) (hst : st ≠ .pending) (hd : data.length ≤ 2) :
      (match s.load.checkSeq with
        | some seq => s.mgmt.complete seq .loadEnd st data
        | none => s.mgmt).Ok s.bank.commit l' := by
    split
    · rename_i seq hseq
      refine h.cache.complete hst hd fun x hx hp hnot => ?_
      obtain hcommit | ⟨hkind, -, hx'⟩ := h.cache.pending x hx hp
      · exact .inl hcommit
      · exact absurd ⟨(Option.some.inj (hseq.symm.trans hx')).symm, hkind⟩ hnot
    · rename_i hnone
      refine { h.cache with pending := fun x hx hp => ?_ }
      obtain hcommit | ⟨-, -, hx'⟩ := h.cache.pending x hx hp
      · exact .inl hcommit
      · exact absurd (hnone.symm.trans hx') (by simp)
  have hjob : s.load.state ≠ .idle := by simp [hk]
  unfold State.completeCheck
  dsimp only
  split
  · exact ⟨h.clock, h.banks.ended hjob rfl (.inl rfl), hcache _ _ _ (by simp) (Nat.zero_le _)⟩
  · refine State.Control.countN ?_ .loadAborts 1
    exact ⟨h.clock, h.banks.ended hjob rfl (.inr rfl), hcache _ _ _ (by simp) (Nat.le_refl _)⟩

theorem control_eventsKeep : EventsKeep State.Control where
  pins _ _ h := h.congr rfl rfl rfl rfl rfl
  elapse _ n h := h.elapse n
  boundary _ hrun h := (control_boundaryKeeps.boundary ⟨h, hrun⟩).1
  change _ _ _ _ _ h := h.congr rfl rfl rfl rfl rfl
  deadEnd _ _ _ h := h.congr rfl rfl rfl rfl rfl
  trip s i _ h := control_gatesFree.detectTrip (fun _ id n h => h.countN id n)
    (fun _ _ _ _ _ h => h.congr rfl rfl rfl rfl rfl) i h
  pinLevel _ _ _ h := h.congr rfl rfl rfl rfl rfl
  episodeEnd _ _ _ h := h.congr rfl rfl rfl rfl rfl
  restore s g _ _ _ h := control_gatesFree.restoreExpiry g h
  gap _ hl h := (h.endJob hl).countN _ _
  check _ hk h := h.completeCheck hk
  safe _ _ f k hc h := h.enterSafe hc f k
  power _ _ _ :=
    { clock := ⟨by simp [State.powerOnValues, State.reset, PeriodTimer.powerOn, NodeController.powerOn],
        fun _ => ⟨rfl, rfl⟩, Nat.zero_lt_succ 499, Nat.le_refl 500, (fun h => by cases h), fun h => absurd rfl h,
        by simp [State.powerOnValues, State.reset, NodeController.powerOn],
        by simp [State.powerOnValues, State.reset, NodeController.powerOn]⟩
      banks := ⟨by simp [State.powerOnValues, State.reset, NodeController.powerOn], (fun h => by cases h),
        by simp [State.powerOnValues, State.reset, BankStore.powerOn], fun h => absurd rfl h,
        by simp [State.powerOnValues, State.reset, BankStore.powerOn, LoadJob.powerOn],
        by simp [State.powerOnValues, State.reset, BankStore.powerOn, LoadJob.powerOn],
        fun h => absurd rfl h, fun h => absurd rfl h⟩
      cache := ⟨Nat.zero_le _, List.nodup_nil, fun _ hx => absurd hx List.not_mem_nil,
        fun _ hx => absurd hx List.not_mem_nil⟩ }

/-- Settles O59: each operation keeps the timer's law, the banks' law and the cache's law; the cache has room for a new
record since at most two records are PENDING, one of a commit and one of a check. -/
theorem controlInvariant : Obligations.ControlInvariant := fun s t hs ht =>
  t.controlOk_iff.mpr (step_keeps control_linkKeeps control_eventsKeep (s.controlOk_iff.mp hs) ht)

end Sys2Proof.Machine

/-! ## The machine, power and reset (R40) -/

namespace Sys2Proof.Machine

/-- Settles O1: `step` takes the front of the queue and runs it with the rest. -/
theorem stepRunsTheFrontCommand : Obligations.StepRunsTheFrontCommand := fun _ _ _ => rfl

/-- Whatever the state was, `State.powerOnValues` leaves every block at its values of R40. -/
theorem State.powerOnValues_spec (s : State) (bypass : Bool) : (s.powerOnValues bypass).PowerOnValues where
  receiver := ⟨rfl, rfl⟩
  address := ⟨rfl, rfl⟩
  slots := ⟨rfl, rfl, rfl, rfl⟩
  queues c := Six.get_all _ c
  images _ := ⟨rfl, rfl⟩
  roles := ⟨rfl, rfl, rfl, rfl⟩
  timer := rfl
  node := rfl
  gates c := Six.get_all _ c
  inputs i := by
    simp only [State.powerOnValues, Four.get_map]
    rfl
  groups g := Two.get_all _ g
  log := rfl
  counters id := by cases id <;> rfl
  engine := ⟨rfl, rfl, rfl⟩
  job := rfl

/-- The pins of the trip inputs keep the levels they have. -/
theorem State.powerOnValues_pin (s : State) (bypass : Bool) (i : Fin 4) :
    ((s.powerOnValues bypass).prot.inputs.get i).pin = (s.prot.inputs.get i).pin := by
  simp only [State.powerOnValues, Four.get_map]
  rfl

/-- Settles O3: the three rows are `State.powerOnValues` on a state whose pin has changed. -/
theorem powerAndResetGivePowerOnValues : Obligations.PowerAndResetGivePowerOnValues := by
  refine ⟨fun s => ?powerOn, fun s => ?resetAsserted, fun s => ?powerLoss, fun s hlow => ?released⟩
  case powerOn =>
    exact ⟨_, rfl, State.powerOnValues_spec _ _, rfl, rfl, State.powerOnValues_pin _ _, rfl, rfl⟩
  case resetAsserted =>
    exact ⟨_, rfl, State.powerOnValues_spec _ _, rfl, rfl, rfl, State.powerOnValues_pin _ _, rfl, rfl⟩
  case powerLoss =>
    exact ⟨_, rfl, State.powerOnValues_spec _ _, rfl, State.powerOnValues_pin _ _, rfl, rfl⟩
  case released =>
    show Host.Outcome.next (if s.pins.resetN = true then s else _) = _
    rw [if_neg (by simp [hlow])]

/-- The reset values meet the invariant of timer, banks, load job and replay cache. -/
theorem State.reset_controlOk : State.reset.ControlOk where
  running := by decide
  stopped _ := ⟨rfl, rfl⟩
  tick := by decide
  len := by decide
  due h := by cases h
  trim h := absurd rfl h
  start := by decide
  cause := by decide
  valid h := by simp [State.reset, NodeController.powerOn] at h
  active h := by cases h
  frozen := by decide
  commit h := absurd rfl h
  loading := by decide
  checking := by decide
  prior h := absurd rfl h
  job h := absurd rfl h
  cacheSize := by decide
  cacheSeqs := List.nodup_nil
  cacheData _ h := absurd h List.not_mem_nil
  cachePending _ h := absurd h List.not_mem_nil

/-- The reset values meet the laws of the groups and inputs. -/
theorem State.reset_groupsOk : State.reset.GroupsOk := by
  constructor <;> decide

/-- Settles O2: the reset state is `State.powerOnValues` of itself, and each invariant holds of the values. -/
theorem resetHoldsPowerOnValues : Obligations.ResetHoldsPowerOnValues := by
  refine ⟨State.reset.powerOnValues_spec false, ?storage, ?gates, ?address, ?records, State.reset_groupsOk,
    State.reset_controlOk, ?queues⟩
  case storage => exact ⟨State.reset_images_wf.1, State.reset_images_wf.2, rfl⟩
  case gates => exact State.gatesOk_of_quiet (by decide) fun c => ⟨.powerOn, Six.get_all _ c⟩
  case address => exact ⟨by decide, by decide, fun _ h => (by cases h), fun _ => by decide⟩
  case records =>
    exact ⟨fun id => by cases id <;> exact Nat.zero_le _, Nat.zero_le _, Nat.zero_le _, fun _ => rfl,
      fun _ _ h => by cases h⟩
  case queues => constructor <;> decide

end Sys2Proof.Machine

/-! ## The pins (R36, R84, R87, R88) -/

namespace Sys2Proof.Machine

/-- Which level of a pin is ASSERTED is the polarity's (R84). -/
theorem TripInput.asserted_iff (x : TripInput) :
    x.asserted = true ↔ x.entry.polarity = .activeLow ∧ x.pin = false ∨ x.entry.polarity = .activeHigh ∧ x.pin = true := by
  unfold TripInput.asserted
  cases x.entry.polarity <;> simp

/-- A pin at the level of its polarity is ASSERTED. -/
theorem TripInput.asserted_high (x : TripInput) :
    TripInput.asserted { x with pin := decide (x.entry.polarity = .activeHigh) } = true := by
  unfold TripInput.asserted
  cases x.entry.polarity <;> rfl

/-- A pin at the other level is DEASSERTED, whatever is held of its assertion. -/
theorem TripInput.asserted_low (x : TripInput) (count : Nat) (episode : Bool) :
    TripInput.asserted { x with pin := decide (x.entry.polarity = .activeLow), count := count, episode := episode }
      = false := by
  unfold TripInput.asserted
  cases x.entry.polarity <;> rfl

/-- A change of one input, with what it does to that input and to the others. -/
theorem State.modifyInput_spec (s : State) (i : Fin 4) (f : TripInput → TripInput) :
    (∀ j, j ≠ i → (s.prot.inputs.modify i f).get j = s.prot.inputs.get j)
      ∧ (s.prot.inputs.modify i f).get i = f (s.prot.inputs.get i) :=
  ⟨fun j hj => by rw [Four.get_modify, if_neg hj], Four.get_modify_self _ _ _⟩

/-- DRV_OK_FALL with DRV_OK high is an entry into SAFE with the pin low already (R36). -/
theorem exec_drvOkFall_high (s : State) (h : s.pins.drvOk = true) :
    exec .drvOkFall s = .next
      (State.enterSafe { s with pins := { s.pins with drvOk := false } } .supplyLoss (some .supplyLoss) none) := by
  show Host.Outcome.next (if s.pins.drvOk = true then _ else s) = _
  rw [if_pos h]

/-- Settles O51: a pin event modifies one input; a fall of DRV_OK is an entry into SAFE. -/
theorem pinEvents : Obligations.PinEvents := by
  refine ⟨TripInput.asserted_iff, fun s i => ?assertion, fun s i => ?episodeEnd, fun _ => rfl, fun s hlow => ?low,
    fun s hhigh harmed hrun => ?idle, fun s hhigh hstate => ?live⟩
  case assertion =>
    obtain ⟨hother, hself⟩ :=
      s.modifyInput_spec i fun x => { x with pin := decide (x.entry.polarity = .activeHigh) }
    refine ⟨_, rfl, rfl, hother, ?_, ?_⟩
    · rw [hself]
      exact TripInput.asserted_high _
    · rw [hself]
  case episodeEnd =>
    obtain ⟨hother, hself⟩ := s.modifyInput_spec i fun x =>
      { x with pin := decide (x.entry.polarity = .activeLow), count := 0, episode := false }
    refine ⟨_, rfl, rfl, hother, ?_, ?_⟩
    · rw [hself]
      exact TripInput.asserted_low _ _ _
    · rw [hself]
  case low =>
    show Host.Outcome.next (if s.pins.drvOk = true then _ else s) = _
    rw [if_neg (by simp [hlow])]
  case idle =>
    rw [exec_drvOkFall_high s hhigh, State.enterSafe_idle]
    exact (NodeState.not_live_iff _).mpr ⟨harmed, hrun⟩
  case live =>
    rw [exec_drvOkFall_high s hhigh, State.enterSafe_live]
    · rfl
    · exact (NodeState.live_iff _).mpr hstate

end Sys2Proof.Machine

/-! ## The clamp (R65) -/

namespace Sys2Proof.Machine

/-- The first step of the clamp changes a value that is outside the limits, and no other. -/
theorem clampLimits_ne_iff (lo hi on : Nat) : clampLimits lo hi on ≠ on ↔ on < lo ∨ hi < on := by
  unfold clampLimits
  split_ifs <;> omega

/-- With the limits in order the first step ends within the maximum. -/
theorem clampLimits_le {lo hi : Nat} (h : lo ≤ hi) (on : Nat) : clampLimits lo hi on ≤ hi := by
  unfold clampLimits
  split_ifs <;> omega

/-- Settles O49: `clampLimits` is the first step and the minimum with L the second. -/
theorem clampTakesTwoSteps : Obligations.ClampTakesTwoSteps := by
  intro lo hi L on hlimits first second
  have hfirst : first = clampLimits lo hi on := rfl
  have hsecond : second = min first L := by
    show (if L < first then L else first) = min first L
    split <;> omega
  have hle := clampLimits_le hlimits on
  refine ⟨hsecond.symm, by omega, by omega, ?_⟩
  unfold clampCount
  rw [← hfirst]
  split_ifs <;> omega

end Sys2Proof.Machine

/-! ## The selection of a channel (R52 to R57) -/

namespace Sys2Proof.Machine

/-- LEADING, TRAILING and CENTERED are the setpoint-driven patterns (R3). -/
theorem Pattern.driven_iff (p : Pattern) : p.driven = true ↔ p = .leading ∨ p = .trailing ∨ p = .centered := by
  cases p <;> simp [Pattern.driven]

namespace ChannelQueue

variable {q : ChannelQueue} {period : Word}

/-- A head for the period that begins is due, and leaves the queue (R51). -/
theorem due_head {x : Setpoint} {rest : List Setpoint} (hr : q.records = x :: rest) (hx : x.target = period) :
    q.due period = some x ∧ q.rest period = rest := by
  have hdue : q.due period = some x := by
    unfold ChannelQueue.due
    rw [hr]
    exact if_pos hx
  refine ⟨hdue, ?_⟩
  unfold ChannelQueue.rest
  rw [hdue, hr]
  rfl

/-- Without such a head none is due and the queue stays. -/
theorem due_none (h : ∀ x ∈ q.records.head?, x.target ≠ period) : q.due period = none ∧ q.rest period = q.records := by
  have hdue : q.due period = none := by
    unfold ChannelQueue.due
    cases hr : q.records with
    | nil => rfl
    | cons x rest => exact if_neg (h x (by simp [hr]))
  refine ⟨hdue, ?_⟩
  unfold ChannelQueue.rest
  rw [hdue]

end ChannelQueue

/-- Settles O41: a head due or none, a driven pattern or another, and the hold count decide the row. -/
theorem selectionTable : Obligations.SelectionTable := by
  intro q m c period driven none'
  have hdriven : driven ↔ (channelPattern m c).driven = true := (Pattern.driven_iff _).symm
  refine ⟨fun x rest hd hr hx => ?used, fun hd hn hoff => ?off, fun hd hn hoff hlt => ?hold,
    fun hd hn hoff hle hact => ?holdOff, fun hd hn hoff hle hact => ?safe, fun x rest hd hr hx => ?undrivenUsed,
    fun hd hn => ?undriven⟩
  case used =>
    obtain ⟨hdue, hrest⟩ := ChannelQueue.due_head hr hx
    simp [ChannelQueue.select, hdriven.mp hd, hdue, hrest]
  case off =>
    simp [ChannelQueue.select, hdriven.mp hd, (ChannelQueue.due_none hn).1, hoff]
  case hold =>
    simp [ChannelQueue.select, hdriven.mp hd, (ChannelQueue.due_none hn).1, hoff, hlt]
  case holdOff =>
    have hkeep : channelHoldSafe m c = false := decide_eq_false (not_not.mpr hact)
    simp [ChannelQueue.select, hdriven.mp hd, (ChannelQueue.due_none hn).1, hoff, Nat.not_lt.mpr hle, hkeep]
  case safe =>
    have hsafe : channelHoldSafe m c = true := decide_eq_true hact
    simp [ChannelQueue.select, hdriven.mp hd, (ChannelQueue.due_none hn).1, hoff, Nat.not_lt.mpr hle, hsafe]
  case undrivenUsed =>
    obtain ⟨-, hrest⟩ := ChannelQueue.due_head hr hx
    simp [ChannelQueue.select, mt hdriven.mpr hd, hrest]
  case undriven =>
    simp [ChannelQueue.select, mt hdriven.mpr hd, (ChannelQueue.due_none hn).2]

end Sys2Proof.Machine

/-! ## Requests to the Node State Controller and the Period Timer -/

namespace Sys2Proof.Machine

/-- An answer that changes nothing but the replay cache, which records it (R155). -/
theorem State.Takes.kept {s : State} {k : ReqKind} {args data : List Byte} {r : Request} {st : Status}
    (h : s.Takes k args r) {i : Instr} (hi : exec i s = .next (s.feedRequest k.code args r)) (hk : k.cached = true)
    (ho : own k r.seq args { s with mgmt := s.mgmt.makeRoom r.seq }
      = answer { s with mgmt := s.mgmt.makeRoom r.seq } st data)
    (hd : data.length ≤ largestData k args) :
    Answers i k.code args r s st false data { s with mgmt := s.mgmt.remember r.seq k st data } :=
  h.answers_cached hi hk ho hd rfl

/-- A period number is not within 1 to `k` periods (R24). -/
theorem within_eq_false {a b : Word} {k : Nat} : within a b k = false ↔ distance a b = 0 ∨ k < distance a b := by
  simp only [within, Bool.and_eq_false_iff, decide_eq_false_iff_not]
  omega

theorem within_eq_true {a b : Word} {k : Nat} : within a b k = true ↔ 1 ≤ distance a b ∧ distance a b ≤ k := by
  simp [within]

/-! ### TRIM (R25) -/

/-- TRIM with its argument taken apart. -/
theorem ownTrim_eq (delta : Word) (s : State) :
    ownTrim (wordBytes delta) s =
      if s.node.state.live = false then answer s .refusedState
      else if imageP s.bank.activeImage / 8 < delta.toInt.natAbs then answer s .invalid
      else
        answer { s with timer := { s.timer with trim := some delta.toInt } } .done
          [if s.timer.trim = none then 0x00 else 0x01] := by
  have hdelta : wordAt (wordBytes delta) 0 = delta := wordOf_bytes delta
  have hdata : (if s.timer.trim.isSome then 0x01 else 0x00 : Byte) = if s.timer.trim = none then 0x00 else 0x01 := by
    cases s.timer.trim <;> rfl
  unfold ownTrim
  dsimp only
  rw [hdelta, hdata]
  rfl

/-- Settles O24: the three outcomes of the owner, on the cache with room made. -/
theorem trimIsPending : Obligations.TrimIsPending := by
  intro s r delta hargs htakes refused
  have howner (s' : State) : own .trim r.seq r.args s' = _ := hargs ▸ ownTrim_eq delta s'
  refine ⟨fun harmed hrun => ?_, fun hstate => ?_⟩
  · have hidle : s.node.state.live = false := (NodeState.not_live_iff _).mpr ⟨harmed, hrun⟩
    exact htakes.kept rfl rfl ((howner _).trans (if_pos hidle)) (Nat.zero_le _)
  · have hlive : ¬ s.node.state.live = false := by simp [(NodeState.live_iff _).mpr hstate]
    refine ⟨fun hd => ?_, fun hd => ?_⟩
    · exact htakes.kept rfl rfl ((howner _).trans ((if_neg hlive).trans (if_pos hd))) (Nat.zero_le _)
    · have haccepted := (howner { s with mgmt := s.mgmt.makeRoom r.seq }).trans
        ((if_neg hlive).trans (if_neg (Nat.not_lt.mpr hd)))
      exact htakes.answers_cached rfl rfl haccepted (Nat.le_refl 1) rfl

/-! ### CLEAR and RESTART (R38, R39) -/

/-- Settles O26: `State.toConfig` and the flush are the record of R38. -/
theorem clearReturnsToConfig : Obligations.ClearReturnsToConfig := by
  intro s r htakes
  constructor
  · intro hstate
    have howner (m : Management) : ownClear { s with mgmt := m } = answer { s with mgmt := m } .refusedState :=
      if_neg hstate
    exact htakes.kept rfl rfl (howner _) (Nat.zero_le _)
  · intro hstate
    have howner (m : Management) :
        ownClear { s with mgmt := m } = answer (State.toConfig { s with mgmt := m }).flush .done := if_pos hstate
    exact htakes.answers_cached rfl rfl (howner _) (Nat.zero_le _) rfl

/-- Settles O27: RESTART is not cached; `State.restart_eq` says what it leaves. -/
theorem restartReinitialises : Obligations.RestartReinitialises := by
  intro s r htakes
  have howner : own .restart r.seq r.args s = ⟨s.restart, .done, []⟩ := rfl
  have hanswer := htakes.answers_uncached (i := .restart r) rfl rfl howner (Nat.zero_le _)
  rw [s.restart_eq] at hanswer
  exact hanswer

/-! ### ARM (R27, R28) -/

section
variable {s : State} {n0 t0 start : Word}

/-- The arguments of an ARM, read back. -/
theorem armArgs (n0 t0 start : Word) :
    wordAt (wordBytes n0 ++ wordBytes t0 ++ wordBytes start) 0 = n0
      ∧ wordAt (wordBytes n0 ++ wordBytes t0 ++ wordBytes start) 2 = t0
      ∧ wordAt (wordBytes n0 ++ wordBytes t0 ++ wordBytes start) 4 = start :=
  ⟨wordOf_bytes n0, wordOf_bytes t0, wordOf_bytes start⟩

/-- ARM with its arguments taken apart. -/
theorem ownArm_eq (n0 t0 start : Word) (s : State) :
    ownArm (wordBytes n0 ++ wordBytes t0 ++ wordBytes start) s =
      if s.node.state ≠ .config then answer s .refusedState [0x01]
      else if s.bank.cond = .empty then answer s .refusedState [0x02]
      else if within n0 start 255 = false then answer s .invalid
      else if imageP s.bank.activeImage ≤ t0.toNat + s.mgmt.comp.toNat then answer s .invalid
      else if s.pins.drvOk = false then answer s .refusedState [0x03]
      else answer (s.arm n0 (t0.toNat + s.mgmt.comp.toNat) start) .done := by
  obtain ⟨hn0, ht0, hstart⟩ := armArgs n0 t0 start
  unfold ownArm
  dsimp only
  rw [hn0, ht0, hstart]
  rfl

/-- An accepted ARM, block by block (R28, R60, R81, R85). -/
theorem State.started_eq (s : State) (n0 : Word) (tick : Nat) (start : Word) :
    s.arm n0 tick start =
      { s with
        timer := { s.timer with
          tick := tick, len := imageP s.bank.activeImage, period := n0, running := true, wrapDue := false }
        node := { s.node with state := .armed, start := some start, loss := 0 }
        queue := s.queue.mapIdx fun c q => q.arm s.bank.activeImage c
        gen := .all .powerOn
        prot := s.prot.arm } := by
  have hgates : s.quietGates.blankEchoes.gen = .all .powerOn := Six.ext_get fun c => by
    simp only [State.quietGates, State.blankEchoes, Six.get_map, Six.get_all]
    rfl
  rw [← hgates]
  rfl

end

/-- Settles O22: the owner's tests in order, the last outcome the values of `State.started_eq`. -/
theorem armStartsTheNode : Obligations.ArmStartsTheNode := by
  intro s r n0 t0 start hargs htakes m refused
  have howner (s' : State) : own .arm r.seq r.args s' = _ := hargs ▸ ownArm_eq n0 t0 start s'
  refine ⟨fun hstate => ?_, fun hstate hempty => ?_, fun hstate hvalid hdist => ?_,
    fun hstate hvalid hlow hhigh => ⟨fun htick => ?_, fun htick hdrv => ?_, fun htick hdrv => ?_⟩⟩
  · exact htakes.kept rfl rfl ((howner _).trans (if_pos hstate)) (Nat.le_refl 1)
  · refine htakes.kept rfl rfl ((howner _).trans ?_) (Nat.le_refl 1)
    rw [if_neg (not_not.mpr hstate), if_pos hempty]
  all_goals
    have hcond : ¬ s.bank.cond = .empty := by simp [hvalid]
  · refine htakes.kept rfl rfl ((howner _).trans ?_) (Nat.zero_le _)
    rw [if_neg (not_not.mpr hstate), if_neg hcond, if_pos (within_eq_false.mpr hdist)]
  all_goals
    have hwithin : ¬ within n0 start 255 = false := by simp [within_eq_true.mpr ⟨hlow, hhigh⟩]
  · refine htakes.kept rfl rfl ((howner _).trans ?_) (Nat.zero_le _)
    rw [if_neg (not_not.mpr hstate), if_neg hcond, if_neg hwithin]
    exact if_pos htick
  · refine htakes.kept rfl rfl ((howner _).trans ?_) (Nat.le_refl 1)
    rw [if_neg (not_not.mpr hstate), if_neg hcond, if_neg hwithin]
    exact (if_neg (Nat.not_le.mpr htick)).trans (if_pos hdrv)
  · have haccepted := (howner { s with mgmt := s.mgmt.makeRoom r.seq }).trans
      ((if_neg (not_not.mpr hstate)).trans ((if_neg hcond).trans ((if_neg hwithin).trans
        ((if_neg (Nat.not_le.mpr htick)).trans (if_neg (by simp [hdrv]))))))
    rw [State.started_eq] at haccepted
    exact htakes.answers_cached rfl rfl haccepted (Nat.zero_le _) rfl

/-! ### ALIGN (R31) -/

/-- ALIGN with its arguments taken apart. -/
theorem ownAlign_eq (n t : Word) (s : State) :
    ownAlign (wordBytes n ++ wordBytes t) s =
      if s.node.state ≠ .armed then answer s .refusedState
      else if s.bank.commit.isSome then answer s .refusedBusy
      else if imageP s.bank.activeImage ≤ t.toNat then answer s .invalid
      else if within n (s.node.start.getD n) 255 = false then answer s .invalid
      else
        answer
          { s.flush with
            timer := { s.timer with
              tick := t.toNat, len := imageP s.bank.activeImage, period := n, trim := none, wrapDue := false } }
          .done := by
  have hn : wordAt (wordBytes n ++ wordBytes t) 0 = n := wordOf_bytes n
  have ht : wordAt (wordBytes n ++ wordBytes t) 2 = t := wordOf_bytes t
  unfold ownAlign
  dsimp only
  rw [hn, ht]
  rfl

/-- Settles O23: the owner's tests in order; the flush is the record of R59. -/
theorem alignSetsTheTimer : Obligations.AlignSetsTheTimer := by
  intro s r n t hargs htakes refused
  have howner (s' : State) : own .align r.seq r.args s' = _ := hargs ▸ ownAlign_eq n t s'
  refine ⟨fun hstate => ?_, fun hstate hcommit => ?_, fun hstate hcommit htick => ?_,
    fun start hstate hcommit hstart htick => ⟨fun hdist => ?_, fun hlow hhigh => ?_⟩⟩
  · exact htakes.kept rfl rfl ((howner _).trans (if_pos hstate)) (Nat.zero_le _)
  · refine htakes.kept rfl rfl ((howner _).trans ?_) (Nat.zero_le _)
    rw [if_neg (not_not.mpr hstate)]
    exact if_pos (Option.isSome_iff_ne_none.mpr hcommit)
  all_goals
    have hnone : ¬ s.bank.commit.isSome = true := by simp [hcommit]
  · refine htakes.kept rfl rfl ((howner _).trans ?_) (Nat.zero_le _)
    rw [if_neg (not_not.mpr hstate), if_neg hnone, if_pos htick]
  all_goals
    have hget : s.node.start.getD n = start := by simp [hstart]
  · refine htakes.kept rfl rfl ((howner _).trans ?_) (Nat.zero_le _)
    rw [if_neg (not_not.mpr hstate), if_neg hnone, if_neg (Nat.not_le.mpr htick), hget,
      if_pos (within_eq_false.mpr hdist)]
  · have hwithin : ¬ within n (s.node.start.getD n) 255 = false := by
      simp [hget, within_eq_true.mpr ⟨hlow, hhigh⟩]
    have haccepted := (howner { s with mgmt := s.mgmt.makeRoom r.seq }).trans
      ((if_neg (not_not.mpr hstate)).trans ((if_neg hnone).trans ((if_neg (Nat.not_le.mpr htick)).trans
        (if_neg hwithin))))
    exact htakes.answers_cached rfl rfl haccepted (Nat.zero_le _) rfl

end Sys2Proof.Machine

/-! ## Driving the pins, seen from the state before a change (R73, R75, R76, R79) -/

namespace Sys2Proof.Machine

/-- What driving did, told from another state with the same inputs, node state, groups of channels and output states. -/
theorem State.Driven.from {s u t : State} (h : u.Driven t) (hinputs : u.prot.inputs = s.prot.inputs)
    (hnode : u.node.state = s.node.state) (himage : u.bank.activeImage = s.bank.activeImage)
    (houtput : ∀ c, (u.gen.get c).output = (s.gen.get c).output) : s.Driven t where
  outputs := h.outputs
  inputs i := by
    have hgroup (c : Fin 6) : u.groupOf c = s.groupOf c := by rw [State.groupOf, State.groupOf, himage]
    simpa only [hinputs, hnode, hgroup, houtput] using h.inputs i

/-- Driving changes output states and blanking alone. -/
theorem State.drive_eq (s : State) :
    s.drive = { s with gen := s.drive.gen, prot := s.drive.prot } ∧ s.drive.prot.groups = s.prot.groups
      ∧ ∀ c, s.drive.gen.get c = { s.gen.get c with output := (s.drive.gen.get c).output } :=
  ⟨rfl, rfl, fun c => by simp only [State.drive, Six.get_mapIdx]⟩

/-! ### A group becomes ENABLED between boundaries (R76) -/

/-- The flags of a group's channels in RUN, channel by channel (R76). -/
theorem State.holdUntilEdge_gen (s : State) (g : Fin 2) (c : Fin 6) :
    (s.holdUntilEdge g).gen.get c =
      { s.gen.get c with
        flag := if s.node.state = .run ∧ s.groupOf c = g then some s.timer.tick else (s.gen.get c).flag } := by
  unfold State.holdUntilEdge
  by_cases hrun : s.node.state = .run
  · rw [if_pos hrun]
    simp only [Six.get_mapIdx, hrun, true_and]
    by_cases hg : s.groupOf c = g <;> simp only [hg, if_true, if_false]
  · rw [if_neg hrun]
    simp only [hrun, false_and, if_false]

/-- What a group that becomes ENABLED changes: its state, the flags of its channels in RUN, and the pins follow. -/
theorem State.enableGroup_spec (s : State) (g : Fin 2) :
    s.enableGroup g = { s with gen := (s.enableGroup g).gen, prot := (s.enableGroup g).prot }
      ∧ (∀ h, (s.enableGroup g).prot.groups.get h =
          if h = g then { s.prot.groups.get h with state := .enabled } else s.prot.groups.get h)
      ∧ (∀ c, (s.enableGroup g).gen.get c =
          { s.gen.get c with
            flag := if s.node.state = .run ∧ s.groupOf c = g then some s.timer.tick else (s.gen.get c).flag
            output := ((s.enableGroup g).gen.get c).output })
      ∧ s.Driven (s.enableGroup g) := by
  let u := (s.modifyGroup g fun x => { x with state := .enabled }).holdUntilEdge g
  have hgen (c : Fin 6) : u.gen.get c = _ := State.holdUntilEdge_gen _ g c
  obtain ⟨heq, hgroups, hoff⟩ := u.drive_eq
  refine ⟨?_, fun h => ?_, fun c => ?_, u.drive_driven.from (by simp [u, State.modifyGroup]) (by simp [u]) (by simp [u]) ?_⟩
  · show u.drive = { s with gen := u.drive.gen, prot := u.drive.prot }
    rw [heq]
    simp only [u, State.holdUntilEdge]
    split <;> rfl
  · show u.drive.prot.groups.get h = _
    rw [hgroups]
    simp only [u, State.holdUntilEdge_prot, State.modifyGroup, Two.get_modify]
  · show u.drive.gen.get c = _
    rw [hoff c, hgen c]
    rfl
  · intro c
    rw [hgen c]
    rfl

/-- The engine plays no part in it. -/
theorem State.enableGroup_mgmt (s : State) (m : Management) (g : Fin 2) :
    State.enableGroup { s with mgmt := m } g = { s.enableGroup g with mgmt := m } := by
  unfold State.enableGroup State.holdUntilEdge
  by_cases hrun : s.node.state = .run
  · rw [if_pos (by exact hrun), if_pos (by exact hrun)]
    rfl
  · rw [if_neg (by exact hrun), if_neg (by exact hrun)]
    rfl

/-! ## TRIP ACK (R99) -/

/-- Some input of a group and an action is ASSERTED (R94, R95, R99). -/
theorem Protection.anyAsserted_iff (p : Protection) (g : Fin 2) (a : TripAction) :
    p.anyAsserted g a = true ↔ ∃ i, (p.inputs.get i).entry.group = some g ∧ (p.inputs.get i).entry.action = a
      ∧ (p.inputs.get i).asserted = true := by
  simp only [Protection.anyAsserted, Four.toList, List.any_eq_true, Bool.and_eq_true, decide_eq_true_eq, and_assoc]
  constructor
  · rintro ⟨x, hx, h⟩
    simp only [List.mem_cons, List.not_mem_nil, or_false] at hx
    obtain rfl | rfl | rfl | rfl := hx
    exacts [⟨0, h⟩, ⟨1, h⟩, ⟨2, h⟩, ⟨3, h⟩]
  · rintro ⟨i, h⟩
    refine ⟨_, ?_, h⟩
    fin_cases i <;> simp [Four.get]

theorem Protection.anyAsserted_false_iff (p : Protection) (g : Fin 2) (a : TripAction) :
    p.anyAsserted g a = false ↔ ∀ i, (p.inputs.get i).entry.group = some g → (p.inputs.get i).entry.action = a →
      (p.inputs.get i).asserted = false := by
  rw [← Bool.not_eq_true, p.anyAsserted_iff]
  simp

/-- TRIP ACK of a group outside CONFIG. -/
theorem ownTripAck_group (s : State) {b : Byte} {g : Fin 2} (hb : b.toNat = g.val) (hn : s.node.state ≠ .config) :
    ownTripAck [b] s =
      if (s.prot.groups.get g).state = .latched then
        if s.prot.anyAsserted g .latch then answer s .active else answer (s.enableGroup g) .done
      else answer s .done := by
  have hgroup : (if byteAt [b] 0 = 0 then some (0 : Fin 2) else if byteAt [b] 0 = 1 then some 1 else none) = some g := by
    obtain rfl : b = BitVec.ofNat 8 g.val := by
      apply BitVec.eq_of_toNat_eq
      simp only [BitVec.toNat_ofNat]
      omega
    fin_cases g <;> rfl
  unfold ownTripAck
  rw [if_neg hn, hgroup]

/-- TRIP ACK of a number that names no group. -/
theorem ownTripAck_invalid (s : State) {b : Byte} (hb : 1 < b.toNat) (hn : s.node.state ≠ .config) :
    ownTripAck [b] s = answer s .invalid := by
  have h0 : ¬ byteAt [b] 0 = 0 := by
    rintro (rfl : b = 0)
    simp at hb
  have h1 : ¬ byteAt [b] 0 = 1 := by
    rintro (rfl : b = 1)
    simp at hb
  unfold ownTripAck
  rw [if_neg hn, if_neg h0, if_neg h1]

/-- Settles O28: the tests in order; the last outcome is `State.enableGroup_spec`. -/
theorem tripAckReleases : Obligations.TripAckReleases := by
  intro s r b hargs htakes kept
  refine ⟨fun hn => ?_, fun hn hb => ?_, fun g hn hb => ?_⟩
  · exact htakes.kept rfl rfl (if_pos hn) (Nat.zero_le _)
  · exact htakes.kept rfl rfl (hargs ▸ ownTripAck_invalid _ hb hn) (Nat.zero_le _)
  have howner (m : Management) : own .tripAck r.seq r.args { s with mgmt := m } = _ :=
    hargs ▸ ownTripAck_group { s with mgmt := m } hb hn
  refine ⟨fun hl => ?_, fun hl hasserted => ?_, fun hl hasserted => ?_⟩
  · exact htakes.kept rfl rfl ((howner _).trans (if_neg hl)) (Nat.zero_le _)
  · have hany : s.prot.anyAsserted g .latch = true := (Protection.anyAsserted_iff _ _ _).mpr hasserted
    exact htakes.kept rfl rfl ((howner _).trans ((if_pos hl).trans (if_pos hany))) (Nat.zero_le _)
  · have hnone : ¬ s.prot.anyAsserted g .latch = true := by
      simp [(Protection.anyAsserted_false_iff _ _ _).mpr hasserted]
    obtain ⟨heq, hgroups, hgen, hdriven⟩ := s.enableGroup_spec g
    have haccepted := (howner (s.mgmt.makeRoom r.seq)).trans ((if_pos hl).trans (if_neg hnone))
    rw [s.enableGroup_mgmt, heq] at haccepted
    refine ⟨_, _, htakes.answers_cached rfl rfl haccepted (Nat.zero_le _) rfl, hgroups, hgen, ?_⟩
    rwa [heq] at hdriven

/-! ## The fault log and the counters (R109, R110, R113, R114) -/

/-- FAULT POP on a log with a record: that record by its number, or nothing. -/
theorem ownFaultPop_cons {s : State} {x : FaultRecord} {rest : List FaultRecord} (h : s.log.records = x :: rest)
    (k : Word) :
    ownFaultPop (wordBytes k) s =
      if x.number = k then answer { s with log := s.log.pop } .done [s.log.pop.countByte]
      else answer s .invalid [s.log.countByte] := by
  have hk : wordAt (wordBytes k) 0 = k := wordOf_bytes k
  unfold ownFaultPop
  rw [h]
  dsimp only
  rw [hk]

theorem ownFaultPop_nil {s : State} (h : s.log.records = []) (args : List Byte) :
    ownFaultPop args s = answer s .done [0] := by
  unfold ownFaultPop
  rw [h]

/-- The log behind its oldest record (R110). -/
theorem FaultLog.pop_cons {l : FaultLog} {x : FaultRecord} {rest : List FaultRecord} (h : l.records = x :: rest) :
    l.pop = { records := rest, next := l.next, dropped := if rest = [] then 0 else l.dropped } := by
  have hlast : (l.records.length ≤ 1) ↔ rest = [] := by
    rw [h]
    cases rest <;> simp
  simp only [FaultLog.pop, hlast]
  rw [h]
  rfl

/-- Settles O29: an empty log, another number, the oldest record's number; COUNTERS CLEAR keeps nothing of the counts. -/
theorem logAndCountersAreEmptied : Obligations.LogAndCountersAreEmptied := by
  refine ⟨fun s r k hargs htakes => ?pop, fun s r htakes => ?clear⟩
  case pop =>
    let u : State := { s with mgmt := s.mgmt.makeRoom r.seq }
    refine ⟨fun hnil => ?_, fun x rest hcons hk => ?_, fun x rest hcons hk => ?_⟩
    · exact htakes.kept rfl rfl (ownFaultPop_nil (s := u) hnil _) (Nat.le_refl 1)
    · have howner : ownFaultPop r.args u = _ := hargs ▸ ownFaultPop_cons (s := u) hcons k
      exact htakes.kept rfl rfl (howner.trans (if_neg hk)) (Nat.le_refl 1)
    · have howner : ownFaultPop r.args u = _ := hargs ▸ ownFaultPop_cons (s := u) hcons k
      have hcount : s.log.pop.countByte = BitVec.ofNat 8 (s.log.records.length - 1) := by
        rw [FaultLog.countByte, FaultLog.pop, List.length_tail]
      have hanswer := htakes.answers_cached (i := .faultPop r) rfl rfl (howner.trans (if_pos hk)) (Nat.le_refl 1) rfl
      dsimp only at hanswer
      rw [hcount, FaultLog.pop_cons hcons] at hanswer
      exact hanswer
  case clear =>
    exact htakes.answers_cached rfl rfl (show ownCountersClear _ = _ from rfl) (Nat.zero_le _) rfl

/-- A fault record fills twelve bytes (11.7). -/
theorem FaultRecord.encode_length (x : FaultRecord) : x.encode.length = 12 := rfl

/-- An optional field as a byte, FFH when it is absent (R176). -/
theorem optByte_eq (n : Nat) (x : Option (Fin n)) : optByte n x = (x.map fun i => BitVec.ofNat 8 i.val).getD 0xFF := by
  cases x <;> rfl

/-- The counters in index order, one by one. -/
theorem Counters.toList_get (c : Counters) :
    c.toList = [CounterId.framesGood, .framesBad, .symbolErrors, .slotMismatch, .slotRepeat, .spLate, .spFar, .spOverrun,
      .spReplaced, .holds, .clamps, .cycleTripsG0, .cycleTripsG1, .mgmtCheckBad, .mgmtReplayed, .loadAborts].map c.get :=
  rfl

/-- Settles O15: the two kinds are not cached, and their owners read. -/
theorem recordReadsReply : Obligations.RecordReadsReply := by
  refine ⟨fun s r htakes => ⟨fun hnil => ?empty, fun x rest hcons => ?oldest⟩, fun s r htakes => ?counters, rfl⟩
  case empty =>
    have howner : own .faultRead r.seq r.args s = ⟨s, .done, [0, BitVec.ofNat 8 s.log.dropped]⟩ := by
      simp only [own, ownFaultRead, FaultLog.countByte, hnil]
      rfl
    exact htakes.answers_uncached rfl rfl howner (by simp [largestData])
  case oldest =>
    have howner : own .faultRead r.seq r.args s
        = ⟨s, .done, [BitVec.ofNat 8 s.log.records.length, BitVec.ofNat 8 s.log.dropped] ++ x.encode⟩ := by
      simp only [own, ownFaultRead, FaultLog.countByte, hcons]
      rfl
    have hanswer := htakes.answers_uncached (i := .faultRead r) rfl rfl howner (Nat.le_refl 14)
    simp only [FaultRecord.encode, optByte_eq] at hanswer
    exact hanswer
  case counters =>
    have howner : own .countersRead r.seq r.args s = ⟨s, .done, _⟩ := rfl
    have hanswer := htakes.answers_uncached (i := .countersRead r) rfl rfl howner (Nat.le_refl 32)
    rw [Counters.toList_get, List.flatMap_map] at hanswer
    exact hanswer

end Sys2Proof.Machine

/-! ## Entry access: READ ENTRY and WRITE ENTRY (R162 to R164) -/

namespace Sys2Proof.Machine

/-! ### Tables, inputs and groups by number -/

theorem Table.ofCode_unknown {b : Byte} (h : b = 0 ∨ 6 < b.toNat) : Table.ofCode b = none := by
  have hrange : b.toNat = 0 ∨ 6 < b.toNat := h.imp_left fun hb => by rw [hb]; rfl
  unfold Table.ofCode
  split
  case h_7 => rfl
  all_goals omega

theorem inputOf_eq {n : Nat} {i : Fin 4} (h : n = i.val) : inputOf n = some i := by
  subst h
  exact dif_pos i.isLt

theorem groupNumber_eq {n : Nat} {g : Fin 2} (h : n = g.val) : groupNumber n = some g := by
  subst h
  exact dif_pos g.isLt

/-! ### READ ENTRY -/

section
variable (s : State) {table : Byte} {t : Table} {index role : Byte}

theorem ownReadEntry_unknown (h : Table.ofCode table = none) : ownReadEntry [table, index, role] s = answer s .invalid := by
  simp only [ownReadEntry, argTable, h]

theorem ownReadEntry_range (h : Table.ofCode table = some t) (hi : t.entries ≤ index.toNat) :
    ownReadEntry [table, index, role] s = answer s .invalid := by
  simp only [ownReadEntry, argTable, h]
  exact if_pos hi

/-- An entry of a bank table is read by its role. -/
theorem ownReadEntry_bank (h : Table.ofCode table = some t) (hb : t.isBank = true) (hi : index.toNat < t.entries) :
    ownReadEntry [table, index, role] s = readBank s t index.toNat role := by
  simp only [ownReadEntry, argTable, h]
  refine (if_neg (Nat.not_le.mpr hi)).trans ?_
  cases t with
  | header => rfl
  | channel => rfl
  | slot => rfl
  | tripInput => cases hb
  | group => cases hb
  | node => cases hb

theorem ownReadEntry_tripInput {i : Fin 4} (hi : index.toNat = i.val) :
    ownReadEntry [0x04, index, role] s = answer s .done (s.prot.inputs.get i).entry.encode := by
  have hrange : ¬ Table.tripInput.entries ≤ index.toNat := by
    show ¬ 4 ≤ index.toNat
    omega
  refine (if_neg hrange).trans ?_
  show (match inputOf index.toNat with | some i => _ | none => _) = _
  rw [inputOf_eq hi]

theorem ownReadEntry_group {g : Fin 2} (hg : index.toNat = g.val) :
    ownReadEntry [0x05, index, role] s = answer s .done (s.prot.groups.get g).entry.encode := by
  have hrange : ¬ Table.group.entries ≤ index.toNat := by
    show ¬ 2 ≤ index.toNat
    omega
  refine (if_neg hrange).trans ?_
  show (match groupNumber index.toNat with | some g => _ | none => _) = _
  rw [groupNumber_eq hg]

end

/-- Reading from the image a role names. -/
theorem readBank_role {s : State} {role : Byte} {m : Memory}
    (h : role = 0x01 ∧ m = s.bank.activeImage ∨ role = 0x02 ∧ m = s.bank.shadowImage) (t : Table) (index : Nat) :
    readBank s t index role = answer s .done (m.readAll (t.base index) t.size) := by
  obtain ⟨rfl, rfl⟩ | ⟨rfl, rfl⟩ := h
  · exact if_pos rfl
  · exact (if_neg (by decide)).trans (if_pos rfl)

theorem readBank_noRole {s : State} {role : Byte} (h1 : role ≠ 0x01) (h2 : role ≠ 0x02) (t : Table) (index : Nat) :
    readBank s t index role = answer s .invalid :=
  (if_neg h1).trans (if_neg h2)

/-- Settles O14: READ ENTRY is not cached; each table is one equation of its owner. -/
theorem readEntryReplies : Obligations.ReadEntryReplies := by
  intro s r table index role hargs htakes reply
  have hreply {st : Status} {data : List Byte} (howner : ownReadEntry [table, index, role] s = answer s st data)
      (hd : data.length ≤ largestData .readEntry [table, index, role]) : reply st data :=
    htakes.answers_uncached rfl rfl (hargs ▸ howner) (hargs ▸ hd)
  have hlast (h : ¬ index.toNat = 0) (ht : table = 0x01 ∨ table = 0x06) : reply .invalid [] := by
    refine hreply ?_ (Nat.zero_le _)
    obtain rfl | rfl := ht
    · exact ownReadEntry_range s (t := .header) rfl (Nat.one_le_iff_ne_zero.mpr h)
    · exact ownReadEntry_range s (t := .node) rfl (Nat.one_le_iff_ne_zero.mpr h)
  have hzero (h : index ≠ 0) : ¬ index.toNat = 0 := fun h0 => h (BitVec.eq_of_toNat_eq h0)
  refine ⟨fun m hm => ⟨?header, ?channel, ?slot⟩, ?input, ?group, ?node, ?invalid⟩
  case header =>
    rintro rfl rfl
    have howner := (ownReadEntry_bank s (table := 0x01) (t := .header) (index := 0) rfl rfl Nat.zero_lt_one).trans
      (readBank_role hm _ _)
    refine hreply ?_ (by simp [largestData, argTable, Table.ofCode, Table.size])
    simpa [Memory.readAll, Table.base, Table.size] using howner
  case channel =>
    rintro rfl hi
    have howner := (ownReadEntry_bank s (table := 0x02) (t := .channel) rfl rfl (Nat.lt_succ_of_le hi)).trans
      (readBank_role hm _ _)
    exact hreply howner (by simp [largestData, argTable, Table.ofCode, Table.size])
  case slot =>
    rintro rfl hi
    have howner := (ownReadEntry_bank s (table := 0x03) (t := .slot) rfl rfl (Nat.lt_succ_of_le hi)).trans
      (readBank_role hm _ _)
    exact hreply howner (by simp [largestData, argTable, Table.ofCode, Table.size])
  case input =>
    rintro i rfl hi
    exact hreply (ownReadEntry_tripInput s hi) (Nat.le_refl 8)
  case group =>
    rintro g rfl hg
    exact hreply (ownReadEntry_group s hg) (Nat.le_refl 2)
  case node =>
    rintro rfl rfl
    exact hreply rfl (Nat.le_refl 2)
  case invalid =>
    rintro (h0 | h6 | ⟨rfl, hi⟩ | ⟨rfl, hi⟩ | ⟨rfl, hi⟩ | ⟨rfl, hi⟩ | ⟨rfl, hi⟩ | ⟨rfl, hi⟩ | ⟨ht, h1, h2⟩)
    · exact hreply (ownReadEntry_unknown s (Table.ofCode_unknown (.inl h0))) (Nat.zero_le _)
    · exact hreply (ownReadEntry_unknown s (Table.ofCode_unknown (.inr h6))) (Nat.zero_le _)
    · exact hlast (hzero hi) (.inl rfl)
    · exact hreply (ownReadEntry_range s (t := .channel) rfl hi) (Nat.zero_le _)
    · exact hreply (ownReadEntry_range s (t := .slot) rfl hi) (Nat.zero_le _)
    · exact hreply (ownReadEntry_range s (t := .tripInput) rfl hi) (Nat.zero_le _)
    · exact hreply (ownReadEntry_range s (t := .group) rfl hi) (Nat.zero_le _)
    · exact hlast (hzero hi) (.inr rfl)
    · have hbank (t : Table) (hc : Table.ofCode table = some t) (hb : t.isBank = true) : reply .invalid [] := by
        refine hreply ?_ (Nat.zero_le _)
        by_cases hi : t.entries ≤ index.toNat
        · exact ownReadEntry_range s hc hi
        · exact (ownReadEntry_bank s hc hb (Nat.lt_of_not_le hi)).trans (readBank_noRole h1 h2 _ _)
      obtain rfl | rfl | rfl := ht
      · exact hbank .header rfl rfl
      · exact hbank .channel rfl rfl
      · exact hbank .slot rfl rfl

/-! ### WRITE ENTRY -/

section
variable (s : State) {table : Byte} {t : Table} {index role : Byte} {entry : List Byte}

theorem ownWriteEntry_range (h : Table.ofCode table = some t) (hi : t.entries ≤ index.toNat) :
    ownWriteEntry (table :: index :: role :: entry) s = answer s .invalid := by
  simp only [ownWriteEntry, argTable, h]
  exact if_pos hi

/-- A write to an entry in range, table by table. -/
theorem ownWriteEntry_bank (h : Table.ofCode table = some t) (hb : t.isBank = true) (hi : index.toNat < t.entries) :
    ownWriteEntry (table :: index :: role :: entry) s = writeBank s t index.toNat role entry := by
  simp only [ownWriteEntry, argTable, h]
  refine (if_neg (Nat.not_le.mpr hi)).trans ?_
  cases t with
  | header => rfl
  | channel => rfl
  | slot => rfl
  | tripInput => cases hb
  | group => cases hb
  | node => cases hb

theorem ownWriteEntry_tripInput (hi : index.toNat < 4) :
    ownWriteEntry (0x04 :: index :: role :: entry) s = writeTripInput s index.toNat entry :=
  if_neg (Nat.not_le.mpr hi)

theorem ownWriteEntry_group (hi : index.toNat < 2) :
    ownWriteEntry (0x05 :: index :: role :: entry) s = writeGroup s index.toNat entry :=
  if_neg (Nat.not_le.mpr hi)

theorem ownWriteEntry_node (hi : index.toNat < 1) :
    ownWriteEntry (0x06 :: index :: role :: entry) s = writeNode s entry :=
  if_neg (Nat.not_le.mpr hi)

end

/-- A bank table's entries lie inside the image (11.5). -/
theorem Table.base_add_size {t : Table} (hb : t.isBank = true) {i : Nat} (hi : i < t.entries) :
    t.base i + t.size ≤ imageSize := by
  cases t with
  | header => exact Nat.le_of_ble_eq_true rfl
  | channel =>
    have hi : i < 6 := hi
    show 16 + 24 * i + 24 ≤ 224
    omega
  | slot =>
    have hi : i < 16 := hi
    show 160 + 4 * i + 4 ≤ 224
    omega
  | tripInput => cases hb
  | group => cases hb
  | node => cases hb

/-- An accepted write of a bank table's entry (R164 test 5). -/
theorem writeBank_accepted {s : State} (h : s.bank.shadow = .editable ∨ s.bank.shadow = .broken) (t : Table) (i : Nat)
    (entry : List Byte) :
    writeBank s t i 0x02 entry
      = answer { s with bank := s.bank.setShadow (s.bank.shadowImage.writeAll (t.base i) entry) } .done := by
  unfold writeBank
  rw [if_neg (by decide), if_neg (by decide)]
  obtain h | h := h <;> rw [h]

theorem writeBank_busy {s : State}
    (h : s.bank.shadow = .loading ∨ s.bank.shadow = .checking ∨ s.bank.shadow = .frozen) (t : Table) (i : Nat)
    (entry : List Byte) : writeBank s t i 0x02 entry = answer s .refusedBusy := by
  unfold writeBank
  rw [if_neg (by decide), if_neg (by decide)]
  obtain h | h | h := h <;> rw [h]

theorem writeBank_role {s : State} {role : Byte} (h : role ≠ 0x02) (t : Table) (i : Nat) (entry : List Byte) :
    writeBank s t i role entry = answer s .invalid := by
  unfold writeBank
  by_cases h1 : role = roleActive
  · exact if_pos h1
  · exact (if_neg h1).trans (if_pos h)

/-- The shadow image with a run of bytes written, and what stays (R9). -/
theorem BankStore.write_spec (b : BankStore) {a n : Nat} {l : List Byte} (hl : l.length = n)
    (hwf : b.shadowImage.wf = true) (ha : a + n ≤ imageSize) :
    let b' := b.setShadow (b.shadowImage.writeAll a l)
    b'.active = b.active ∧ b'.cond = b.cond ∧ b'.shadow = b.shadow ∧ b'.commit = b.commit
      ∧ b'.activeImage = b.activeImage
      ∧ ∀ x, b'.shadowImage.read x = if a ≤ x ∧ x < a + n then byteAt l (x - a) else b.shadowImage.read x := by
  subst hl
  obtain ⟨himage, hactiveImage, hactive, hcond, hshadow, hcommit⟩ :=
    b.setShadow_spec (b.shadowImage.writeAll a l)
  refine ⟨hactive, hcond, hshadow, hcommit, hactiveImage, fun x => ?_⟩
  rw [himage]
  exact Memory.read_writeAll l _ a x hwf ha

/-- Settles O16: the owner writes the entry's bytes at the entry's place, which lies inside the image. -/
theorem writeEntryBankStores : Obligations.WriteEntryBankStores := by
  intro s r table index t entry hargs hcode hbank hindex hlength htakes hwf hshadow
  let u : State := { s with mgmt := s.mgmt.makeRoom r.seq }
  have hargs' {a : Answer} (h : ownWriteEntry (table :: index :: 0x02 :: entry) u = a) :
      own .writeEntry r.seq (table :: r.args) u = a := by rwa [hargs]
  have howner := (ownWriteEntry_bank u (entry := entry) hcode hbank hindex).trans
    (writeBank_accepted (s := u) hshadow _ _ _)
  exact ⟨_, htakes.answers_cached rfl rfl (hargs' howner) (Nat.zero_le _) rfl,
    s.bank.write_spec hlength hwf (Table.base_add_size hbank hindex)⟩

/-! ### The entries of the node's own tables (11.6) -/

/-- A TRIP INPUT entry with its fields in range is read back from its bytes (R82). -/
theorem TripEntry.decode_encode {e : TripEntry} (hblank : e.blanking.toNat ≤ 1023) (hdelay : e.delay ≠ 0) :
    TripEntry.decode e.encode = some e := by
  have hd : 1 ≤ e.delay.toNat := Nat.one_le_iff_ne_zero.mpr fun h0 => hdelay (BitVec.eq_of_toNat_eq h0)
  have hpolarity : Polarity.ofCode e.polarity.code = some e.polarity := by cases e.polarity <;> rfl
  have hgroup : tripGroupOfCode (tripGroupCode e.group) = some e.group := by
    rcases e.group with - | g
    · rfl
    · fin_cases g <;> rfl
  have haction : TripAction.ofCode e.action.code = some e.action := by cases e.action <;> rfl
  have hb : wordAt e.encode 3 = e.blanking := wordOf_bytes _
  have hw : wordAt e.encode 6 = e.delay := wordOf_bytes _
  unfold TripEntry.decode
  rw [hb, hw]
  show (match Polarity.ofCode e.polarity.code, tripGroupOfCode (tripGroupCode e.group), TripAction.ofCode e.action.code with
    | some p, some g, some a => _ | _, _, _ => _) = _
  rw [hpolarity, hgroup, haction]
  exact if_pos ⟨hblank, hd⟩

/-- A field out of range makes the bytes spell no entry (R82). -/
theorem TripEntry.decode_none {l : List Byte}
    (h : 1 < (byteAt l 0).toNat ∨ (1 < (byteAt l 1).toNat ∧ byteAt l 1 ≠ 0xFF) ∨ 1023 < (wordAt l 3).toNat
      ∨ byteAt l 5 = 0 ∨ 3 < (byteAt l 5).toNat ∨ wordAt l 6 = 0) : TripEntry.decode l = none := by
  unfold TripEntry.decode
  split
  case h_2 => rfl
  rename_i p g a hp hg ha
  refine if_neg fun hrange => ?_
  have h0 : (byteAt l 0).toNat ≤ 1 := by
    unfold Polarity.ofCode at hp
    split_ifs at hp with h0 h1 <;> simp [*]
  have h1 : (byteAt l 1).toNat ≤ 1 ∨ byteAt l 1 = 0xFF := by
    unfold tripGroupOfCode at hg
    split_ifs at hg with h0 h1 h2
    · exact .inl (by simp [h0])
    · exact .inl (by simp [h1])
    · exact .inr h2
  have h5 : byteAt l 5 ≠ 0 ∧ (byteAt l 5).toNat ≤ 3 := by
    unfold TripAction.ofCode at ha
    split_ifs at ha with h1 h2 h3 <;> simp [*]
  have h6 : wordAt l 6 ≠ 0 := fun hw => by simp [hw] at hrange
  obtain h | ⟨h, hne⟩ | h | h | h | h := h
  · omega
  · obtain h1 | h1 := h1
    · omega
    · exact hne h1
  · omega
  · exact h5.1 h
  · omega
  · exact h6 h

theorem GroupEntry.decode_eq (e w : Byte) : GroupEntry.decode [e, w] = if w = 0 then none else some ⟨e, w⟩ := rfl

section
variable {s : State} (hn : s.node.state = .config)
include hn

theorem writeTripInput_accepted {n : Nat} {i : Fin 4} (hi : n = i.val) {l : List Byte} {e : TripEntry}
    (he : TripEntry.decode l = some e) :
    writeTripInput s n l
      = answer
          { s with prot := { s.prot with inputs := s.prot.inputs.modify i fun x => { x with entry := e } } } .done := by
  unfold writeTripInput
  rw [if_neg (not_not.mpr hn), inputOf_eq hi, he]

theorem writeTripInput_invalid (n : Nat) {l : List Byte} (he : TripEntry.decode l = none) :
    writeTripInput s n l = answer s .invalid := by
  unfold writeTripInput
  rw [if_neg (not_not.mpr hn), he]
  cases inputOf n <;> rfl

theorem writeGroup_accepted {n : Nat} {g : Fin 2} (hg : n = g.val) (e : Byte) {w : Byte} (hw : w ≠ 0) :
    writeGroup s n [e, w]
      = answer
          { s with prot := { s.prot with groups := s.prot.groups.modify g fun x => { x with entry := ⟨e, w⟩ } } }
          .done := by
  unfold writeGroup
  rw [if_neg (not_not.mpr hn), groupNumber_eq hg, GroupEntry.decode_eq, if_neg hw]

theorem writeGroup_invalid (n : Nat) (e : Byte) : writeGroup s n [e, 0] = answer s .invalid := by
  unfold writeGroup
  rw [if_neg (not_not.mpr hn), GroupEntry.decode_eq, if_pos rfl]
  cases groupNumber n <;> rfl

theorem writeNode_config (comp : Word) :
    writeNode s (wordBytes comp)
      = if 1023 < comp.toNat then answer s .invalid
        else answer { s with mgmt := { s.mgmt with comp := comp } } .done := by
  have hcomp : wordAt (wordBytes comp) 0 = comp := wordOf_bytes comp
  unfold writeNode
  rw [if_neg (not_not.mpr hn), hcomp]

end

/-- Settles O17: in CONFIG, with the fields in range, each of the three writes is one change of one entry. -/
theorem writeEntryStoresNodeTables : Obligations.WriteEntryStoresNodeTables := by
  refine ⟨fun s r i role e hargs hblank hdelay htakes hn => ?input, fun s r g role e w hargs hw htakes hn => ?group,
    fun s r role comp hargs hcomp htakes hn => ?node⟩
  all_goals let u : State := { s with mgmt := s.mgmt.makeRoom r.seq }
  case input =>
    have hi : (BitVec.ofNat 8 i.val).toNat = i.val := by simp; omega
    have hargs' {a : Answer} (h : ownWriteEntry (0x04 :: BitVec.ofNat 8 i.val :: role :: e.encode) u = a) :
        own .writeEntry r.seq (0x04 :: r.args) u = a := by rwa [hargs]
    have howner := (ownWriteEntry_tripInput (index := BitVec.ofNat 8 i.val) (role := role) u (by omega)).trans
      (writeTripInput_accepted (s := u) hn hi (TripEntry.decode_encode hblank hdelay))
    exact htakes.answers_cached rfl rfl (hargs' howner) (Nat.zero_le _) rfl
  case group =>
    have hg : (BitVec.ofNat 8 g.val).toNat = g.val := by simp; omega
    have hargs' {a : Answer} (h : ownWriteEntry (0x05 :: BitVec.ofNat 8 g.val :: role :: [e, w]) u = a) :
        own .writeEntry r.seq (0x05 :: r.args) u = a := by rwa [hargs]
    have howner := (ownWriteEntry_group (index := BitVec.ofNat 8 g.val) (role := role) u (by omega)).trans
      (writeGroup_accepted (s := u) hn hg e hw)
    exact htakes.answers_cached rfl rfl (hargs' howner) (Nat.zero_le _) rfl
  case node =>
    have hargs' {a : Answer} (h : ownWriteEntry (0x06 :: 0 :: role :: wordBytes comp) u = a) :
        own .writeEntry r.seq (0x06 :: r.args) u = a := by rwa [hargs]
    have howner := (ownWriteEntry_node (index := 0) (role := role) u (by decide)).trans
      ((writeNode_config (s := u) hn comp).trans (if_neg (Nat.not_lt.mpr hcomp)))
    exact htakes.answers_cached rfl rfl (hargs' howner) (Nat.zero_le _) rfl

/-- Settles O18: the tests of R164 in order, for the bank tables and for each of the node's tables. -/
theorem refusedWritesChangeNothing : Obligations.RefusedWritesChangeNothing := by
  refine ⟨?bank, ?input, ?group, ?node⟩
  case bank =>
    intro s r table index role t entry hargs hcode hbank hlength htakes reply
    let u : State := { s with mgmt := s.mgmt.makeRoom r.seq }
    have hreply {st : Status} (h : ownWriteEntry (table :: index :: role :: entry) u = answer u st) : reply st :=
      htakes.kept rfl rfl (by rw [hargs]; exact h) (Nat.zero_le _)
    refine ⟨fun h => hreply ?_, fun hi hrole hshadow => hreply ?_⟩
    · by_cases hi : t.entries ≤ index.toNat
      · exact ownWriteEntry_range u hcode hi
      · exact (ownWriteEntry_bank u hcode hbank (Nat.lt_of_not_le hi)).trans
          (writeBank_role (h.resolve_left hi) _ _ _)
    · subst hrole
      exact (ownWriteEntry_bank u hcode hbank hi).trans (writeBank_busy (s := u) hshadow _ _ _)
  case input =>
    intro s r index role entry hargs htakes reply
    let u : State := { s with mgmt := s.mgmt.makeRoom r.seq }
    have hreply {st : Status} (h : ownWriteEntry (0x04 :: index :: role :: entry) u = answer u st) : reply st :=
      htakes.kept rfl rfl (by rw [hargs]; exact h) (Nat.zero_le _)
    have hrange (hi : 3 < index.toNat) : ownWriteEntry (0x04 :: index :: role :: entry) u = answer u .invalid :=
      ownWriteEntry_range u (t := .tripInput) rfl hi
    refine ⟨fun hi => hreply (hrange hi), fun hi hn => hreply ?_, fun hn hbad => hreply ?_⟩
    · exact (ownWriteEntry_tripInput u (Nat.lt_succ_of_le hi)).trans (if_pos hn)
    · by_cases hi : 3 < index.toNat
      · exact hrange hi
      · exact (ownWriteEntry_tripInput u (by omega)).trans
          (writeTripInput_invalid (s := u) hn _ (TripEntry.decode_none hbad))
  case group =>
    intro s r index role e w hargs htakes reply
    let u : State := { s with mgmt := s.mgmt.makeRoom r.seq }
    have hreply {st : Status} (h : ownWriteEntry (0x05 :: index :: role :: [e, w]) u = answer u st) : reply st :=
      htakes.kept rfl rfl (by rw [hargs]; exact h) (Nat.zero_le _)
    have hrange (hi : 1 < index.toNat) : ownWriteEntry (0x05 :: index :: role :: [e, w]) u = answer u .invalid :=
      ownWriteEntry_range u (t := .group) rfl hi
    refine ⟨fun hi => hreply (hrange hi), fun hi hn => hreply ?_, fun hn hw => hreply ?_⟩
    · exact (ownWriteEntry_group u (Nat.lt_succ_of_le hi)).trans (if_pos hn)
    · by_cases hi : 1 < index.toNat
      · exact hrange hi
      · subst hw
        exact (ownWriteEntry_group u (by omega)).trans (writeGroup_invalid (s := u) hn _ e)
  case node =>
    intro s r index role comp hargs htakes reply
    let u : State := { s with mgmt := s.mgmt.makeRoom r.seq }
    have hreply {st : Status} (h : ownWriteEntry (0x06 :: index :: role :: wordBytes comp) u = answer u st) :
        reply st := htakes.kept rfl rfl (by rw [hargs]; exact h) (Nat.zero_le _)
    have hrange (hi : ¬ index.toNat < 1) : ownWriteEntry (0x06 :: index :: role :: wordBytes comp) u = answer u .invalid :=
      ownWriteEntry_range u (t := .node) rfl (Nat.le_of_not_lt hi)
    refine ⟨fun hi => hreply (hrange fun h0 => hi (BitVec.eq_of_toNat_eq (Nat.lt_one_iff.mp h0))),
      fun hi hn => hreply ?_, fun hn hbad => hreply ?_⟩
    · subst hi
      exact (ownWriteEntry_node u (by decide)).trans (if_pos hn)
    · by_cases hi : index.toNat < 1
      · exact (ownWriteEntry_node u hi).trans ((writeNode_config (s := u) hn comp).trans (if_pos hbad))
      · exact hrange hi

end Sys2Proof.Machine

/-! ## Bank load jobs (R166 to R173) -/

namespace Sys2Proof.Machine

/-! ### LOAD BEGIN (R166) -/

/-- LOAD BEGIN with its arguments taken apart. -/
theorem ownLoadBegin_eq (first count : Byte) (checksum : Word) (s : State) :
    ownLoadBegin ([first, count] ++ wordBytes checksum) s =
      if s.load.state ≠ .idle then answer s .refusedBusy
      else if s.bank.shadow = .frozen then answer s .refusedBusy
      else if 6 < first.toNat ∨ count.toNat = 0 ∨ 7 < count.toNat ∨ 7 < first.toNat + count.toNat then
        answer s .invalid
      else
        answer
          { s with
            load :=
              { state := .receiving, first := first.toNat, count := count.toNat, next := first.toNat
                checksum := checksum, written := 0, prior := s.bank.shadow, gap := 2000000, checkSeq := none
                checkLeft := 0 }
            bank := { s.bank with shadow := .loading } }
          .done := by
  have hsum : wordAt ([first, count] ++ wordBytes checksum) 2 = checksum := wordOf_bytes checksum
  unfold ownLoadBegin
  dsimp only
  rw [hsum]
  rfl

/-- Settles O30: the tests in order, and the job of an accepted request. -/
theorem loadBeginStartsAJob : Obligations.LoadBeginStartsAJob := by
  intro s r first count checksum hargs htakes refused
  let u : State := { s with mgmt := s.mgmt.makeRoom r.seq }
  have howner : own .loadBegin r.seq r.args u = _ := hargs ▸ ownLoadBegin_eq first count checksum u
  have hzero : count = 0 ↔ count.toNat = 0 := ⟨fun h => by rw [h]; rfl, fun h => BitVec.eq_of_toNat_eq h⟩
  refine ⟨fun h => ?busy, fun hidle hfrozen hbad => ?invalid, fun hidle hfrozen hcount hrange => ?accepted⟩
  case busy =>
    refine htakes.kept rfl rfl (howner.trans ?_) (Nat.zero_le _)
    by_cases hidle : u.load.state = .idle
    · exact (if_neg (not_not.mpr hidle)).trans (if_pos (h.resolve_left (not_not.mpr hidle)))
    · exact if_pos hidle
  case invalid =>
    have hbad' : 6 < first.toNat ∨ count.toNat = 0 ∨ 7 < count.toNat ∨ 7 < first.toNat + count.toNat := by
      rwa [hzero] at hbad
    exact htakes.kept rfl rfl
      (howner.trans ((if_neg (not_not.mpr hidle)).trans ((if_neg hfrozen).trans (if_pos hbad')))) (Nat.zero_le _)
  case accepted =>
    have hgood : ¬ (6 < first.toNat ∨ count.toNat = 0 ∨ 7 < count.toNat ∨ 7 < first.toNat + count.toNat) := by
      have := hzero.not.mp hcount
      omega
    exact htakes.answers_cached rfl rfl
      (howner.trans ((if_neg (not_not.mpr hidle)).trans ((if_neg hfrozen).trans (if_neg hgood)))) (Nat.zero_le _) rfl

/-! ### LOAD DATA (R167, R168) -/

section
variable {s : State} {args : List Byte}

theorem ownLoadData_idle (h : s.load.state = .idle) : ownLoadData args s = answer s .refusedState := by
  unfold ownLoadData
  rw [h]

theorem ownLoadData_checking (h : s.load.state = .checking) : ownLoadData args s = answer s .refusedBusy := by
  unfold ownLoadData
  rw [h]

/-- LOAD DATA in RECEIVING, its index and block taken apart. -/
theorem ownLoadData_receiving (h : s.load.state = .receiving) (index : Byte) (block : List Byte) :
    ownLoadData (index :: block) s =
      if index.toNat = s.load.next ∧ s.load.next < s.load.first + s.load.count then
        answer
          { s with
            bank := s.bank.setShadow (s.bank.shadowImage.writeAll (32 * index.toNat) block)
            load := { s.load with next := s.load.next + 1, written := s.load.written + 1, gap := Config.gapTicks } }
          .done [BitVec.ofNat 8 (s.load.next + 1)]
      else if index.toNat + 1 = s.load.next ∧ s.load.first < s.load.next then
        answer s .done [BitVec.ofNat 8 s.load.next]
      else answer (s.endJob.count .loadAborts) .outOfOrder := by
  unfold ownLoadData
  rw [h]
  rfl

end

/-- Settles O31: the block's place lies inside the image because a job ends at block 7, and its 32 bytes are what the form
of the request asks for. -/
theorem loadDataWritesTheNextBlock : Obligations.LoadDataWritesTheNextBlock := by
  intro s r index block hargs htakes kept
  let u : State := { s with mgmt := s.mgmt.makeRoom r.seq }
  refine ⟨fun h => ?idle, fun h => ?checking, fun h hi hnext hjob hwf => ?next, fun h hi hfirst => ?again,
    fun h hnext hagain => ?other⟩
  case idle => exact htakes.kept rfl rfl (ownLoadData_idle (s := u) h) (Nat.zero_le _)
  case checking => exact htakes.kept rfl rfl (ownLoadData_checking (s := u) h) (Nat.zero_le _)
  all_goals
    have howner : own .loadData r.seq r.args u = _ := hargs ▸ ownLoadData_receiving (s := u) h index block
  case next =>
    have hlength : block.length = 32 := by
      have hform := htakes.form
      rw [hargs] at hform
      simpa [argLengthOk] using hform
    have hplace : 32 * index.toNat + 32 ≤ imageSize := by
      show _ ≤ 224
      omega
    exact ⟨_, htakes.answers_cached rfl rfl (howner.trans (if_pos ⟨hi, hnext⟩)) (Nat.le_refl 1) rfl,
      s.bank.write_spec hlength hwf hplace⟩
  case again =>
    refine htakes.kept rfl rfl (howner.trans ((if_neg ?_).trans (if_pos ⟨hi, hfirst⟩))) (Nat.le_refl 1)
    show ¬ (index.toNat = s.load.next ∧ _)
    omega
  case other =>
    exact htakes.answers_cached rfl rfl (howner.trans ((if_neg hnext).trans (if_neg hagain))) (Nat.zero_le _) rfl

/-! ### LOAD END and LOAD CANCEL (R170, R172) -/

/-- LOAD END in RECEIVING. -/
theorem ownLoadEnd_receiving {s : State} (h : s.load.state = .receiving) (seq : Byte) :
    ownLoadEnd seq s =
      if s.load.next < s.load.first + s.load.count then answer s .incomplete
      else
        answer
          { s with
            load := { s.load with state := .checking, gap := 0, checkSeq := some seq, checkLeft := Config.checkTicks }
            bank := { s.bank with shadow := .checking } }
          .pending := by
  unfold ownLoadEnd
  rw [h]

/-- Settles O32: both requests by the job's state. -/
theorem loadEndAndCancel : Obligations.LoadEndAndCancel := by
  refine ⟨fun s r htakes => ?loadEnd, fun s r htakes => ?cancel⟩
  all_goals
    intro kept
    let u : State := { s with mgmt := s.mgmt.makeRoom r.seq }
  case loadEnd =>
    refine ⟨fun h => ?_, fun h => ?_, fun h hmore => ?_, fun h hall => ?_⟩
    · have howner : ownLoadEnd r.seq u = answer u .refusedState := by
        unfold ownLoadEnd
        rw [show u.load.state = .idle from h]
      exact htakes.kept rfl rfl howner (Nat.zero_le _)
    · have howner : ownLoadEnd r.seq u = answer u .refusedBusy := by
        unfold ownLoadEnd
        rw [show u.load.state = .checking from h]
      exact htakes.kept rfl rfl howner (Nat.zero_le _)
    · exact htakes.kept rfl rfl ((ownLoadEnd_receiving (s := u) h _).trans (if_pos hmore)) (Nat.zero_le _)
    · exact htakes.answers_cached rfl rfl
        ((ownLoadEnd_receiving (s := u) h _).trans (if_neg (Nat.not_lt.mpr hall))) (Nat.zero_le _) rfl
  case cancel =>
    refine ⟨fun h => ?_, fun h => ?_, fun h => ?_⟩
    · have howner : ownLoadCancel u = answer u .done := by
        unfold ownLoadCancel
        rw [show u.load.state = .idle from h]
      exact htakes.kept rfl rfl howner (Nat.zero_le _)
    · have howner : ownLoadCancel u = answer u .refusedBusy := by
        unfold ownLoadCancel
        rw [show u.load.state = .checking from h]
      exact htakes.kept rfl rfl howner (Nat.zero_le _)
    · have howner : ownLoadCancel u = answer u.endJob .done := by
        unfold ownLoadCancel
        rw [show u.load.state = .receiving from h]
      exact htakes.answers_cached rfl rfl howner (Nat.zero_le _) rfl

/-! ### The job's own events (R169, R171) -/

/-- The engine with the PENDING LOAD END of a check completed, when the check has a sequence (R157). -/
def Management.endCheck (m : Management) (seq : Option Byte) (st : Status) (data : List Byte) : Management :=
  { m with
    cache := m.cache.map fun x =>
      if seq = some x.seq ∧ x.kind = .loadEnd ∧ x.status = .pending then { x with status := st, data := data } else x }

theorem Management.endCheck_none (m : Management) (st : Status) (data : List Byte) : m.endCheck none st data = m := by
  simp [Management.endCheck]

theorem Management.endCheck_some (m : Management) (q : Byte) (st : Status) (data : List Byte) :
    m.endCheck (some q) st data = m.complete q .loadEnd st data := by
  simp only [Management.endCheck, Management.complete, Option.some.injEq, eq_comm (a := q)]

/-- The end of a check, record by record (R171). -/
theorem State.completeCheck_eq (s : State) :
    s.completeCheck =
      if s.checkMatches then
        { s with
          load := { s.load with state := .idle, gap := 0, checkSeq := none, checkLeft := 0 }
          bank := { s.bank with shadow := .editable }
          mgmt := s.mgmt.endCheck s.load.checkSeq .done [] }
      else
        { s with
          load := { s.load with state := .idle, gap := 0, checkSeq := none, checkLeft := 0 }
          bank := { s.bank with shadow := .broken }
          mgmt := s.mgmt.endCheck s.load.checkSeq .checkFailed [0x21, 0xFF]
          counters := s.counters.add 1 .loadAborts } := by
  unfold State.completeCheck
  cases hseq : s.load.checkSeq with
  | none =>
    simp only [Management.endCheck_none]
    rfl
  | some q =>
    simp only [Management.endCheck_some]
    rfl

/-- Settles O33: the ticks pass, then the job's end or the check's end is the record of its rule; time changes neither the
shadow image nor what the job is about. -/
theorem loadJobEndsByItself : Obligations.LoadJobEndsByItself := by
  refine ⟨fun s h => ?gap, fun s h => ?check⟩
  case gap =>
    intro u
    obtain ⟨gap, left, hload⟩ := s.load.elapse_keeps s.load.gap
    have hu : u.load.written = s.load.written ∧ u.load.prior = s.load.prior := by
      show (s.elapse s.load.gap).load.written = _ ∧ (s.elapse s.load.gap).load.prior = _
      unfold State.elapse
      split
      · exact ⟨rfl, rfl⟩
      · dsimp only
        rw [hload]
        exact ⟨rfl, rfl⟩
    show Host.Outcome.next (if s.load.state = .receiving then u.gapExpiry else s) = _
    rw [if_pos h]
    have hafter : u.load.shadowAfter = if 1 ≤ s.load.written then .broken else s.load.prior := by
      unfold LoadJob.shadowAfter
      rw [hu.1, hu.2]
    simp only [State.gapExpiry, State.endJob, State.count, State.countN, hafter]
    simp [u]
  case check =>
    intro u crc ended
    obtain ⟨gap, left, hload⟩ := s.load.elapse_keeps s.load.checkLeft
    have hu : u.load.first = s.load.first ∧ u.load.count = s.load.count ∧ u.load.checksum = s.load.checksum
        ∧ u.load.checkSeq = s.load.checkSeq := by
      show (s.elapse s.load.checkLeft).load.first = _ ∧ (s.elapse s.load.checkLeft).load.count = _
        ∧ (s.elapse s.load.checkLeft).load.checksum = _ ∧ (s.elapse s.load.checkLeft).load.checkSeq = _
      unfold State.elapse
      split
      · exact ⟨rfl, rfl, rfl, rfl⟩
      · dsimp only
        rw [hload]
        exact ⟨rfl, rfl, rfl, rfl⟩
    obtain ⟨hfirst, hcount, hsum, hseq⟩ := hu
    have hbank : u.bank = s.bank := State.elapse_bank s _
    have hmgmt : u.mgmt = s.mgmt := State.elapse_mgmt s _
    have hcounters : u.counters = s.counters := State.elapse_counters s _
    have hmatches : u.checkMatches = decide (crc = s.load.checksum) := by
      unfold State.checkMatches
      rw [hbank, hfirst, hcount, hsum]
      rfl
    have hexec : exec .checkCompletion s = .next u.completeCheck := by
      show Host.Outcome.next (if s.load.state = .checking then u.completeCheck else s) = _
      rw [if_pos h]
    rw [hexec, State.completeCheck_eq, hmatches, hseq, hbank, hmgmt, hcounters]
    constructor
    · intro hgood
      rw [if_pos (by simpa using hgood)]
      rfl
    · intro hbad
      rw [if_neg (by simpa using hbad)]
      rfl

end Sys2Proof.Machine

/-! ## Validation in the bytes of an image (R10 to R13) -/

namespace Sys2Proof.Machine

/-! ### The first check of a list that fails -/

/-- `o` is what a list of checks reports: nothing, or reason and index of the first check that fails (R10). -/
def Check.Report (l : List Check) (o : Option (Reason × Byte)) : Prop :=
  match o with
  | none => ∀ x ∈ l, ¬ x.fails
  | some (r, i) => ∃ before x after, l = before ++ x :: after ∧ (∀ y ∈ before, ¬ y.fails) ∧ x.fails
      ∧ x.reason = r ∧ x.index = i

namespace Check.Report

variable {c : Check} {l l' : List Check} {o o' : Option (Reason × Byte)}

theorem nil : Report [] none := fun _ hx => absurd hx List.not_mem_nil

theorem cons_fails (h : c.fails) : Report (c :: l) (some (c.reason, c.index)) :=
  ⟨[], c, l, rfl, fun _ hy => absurd hy List.not_mem_nil, h, rfl, rfl⟩

theorem cons_passes (hc : ¬ c.fails) (h : Report l o) : Report (c :: l) o := by
  match o, h with
  | none, h =>
    intro x hx
    obtain rfl | hx := List.mem_cons.mp hx
    · exact hc
    · exact h x hx
  | some (r, i), ⟨before, x, after, hl, hbefore, hx, hr, hi⟩ =>
    refine ⟨c :: before, x, after, by rw [hl]; rfl, fun y hy => ?_, hx, hr, hi⟩
    obtain rfl | hy := List.mem_cons.mp hy
    · exact hc
    · exact hbefore y hy

/-- A list reports once. -/
theorem unique (h : Report l o) (h' : Report l o') : o = o' := by
  induction l generalizing o o' with
  | nil =>
    match o, o', h, h' with
    | none, none, _, _ => rfl
    | some (r, i), _, ⟨_, _, _, hl, _⟩, _ => simp at hl
    | none, some (r, i), _, ⟨_, _, _, hl, _⟩ => simp at hl
  | cons c l ih =>
    by_cases hc : c.fails
    · have hfirst {o : Option (Reason × Byte)} (h : Report (c :: l) o) : o = some (c.reason, c.index) := by
        match o, h with
        | none, h => exact absurd hc (h c List.mem_cons_self)
        | some (r, i), ⟨[], x, after, hl, _, _, hr, hi⟩ =>
          obtain ⟨rfl, -⟩ := List.cons.inj hl
          rw [hr, hi]
        | some (r, i), ⟨b :: before, x, after, hl, hbefore, _⟩ =>
          obtain ⟨rfl, -⟩ := List.cons.inj hl
          exact absurd hc (hbefore c List.mem_cons_self)
      rw [hfirst h, hfirst h']
    · have hrest {o : Option (Reason × Byte)} (h : Report (c :: l) o) : Report l o := by
        match o, h with
        | none, h => exact fun x hx => h x (List.mem_cons_of_mem _ hx)
        | some (r, i), ⟨[], x, after, hl, _, hx, _⟩ =>
          obtain ⟨rfl, -⟩ := List.cons.inj hl
          exact absurd hx hc
        | some (r, i), ⟨b :: before, x, after, hl, hbefore, hx, hr, hi⟩ =>
          exact ⟨before, x, after, (List.cons.inj hl).2, fun y hy => hbefore y (List.mem_cons_of_mem _ hy), hx, hr, hi⟩
      exact ih (hrest h) (hrest h')

theorem append (h : Report l o) (h' : Report l' o') : Report (l ++ l') (o.or o') := by
  match o, h with
  | none, h =>
    rw [Option.none_or]
    clear * - h h'
    induction l with
    | nil => exact h'
    | cons c l ih => exact cons_passes (h c List.mem_cons_self) (ih fun x hx => h x (List.mem_cons_of_mem _ hx))
  | some (r, i), ⟨before, x, after, hl, hbefore, hx, hr, hi⟩ =>
    exact ⟨before, x, after ++ l', by simp [hl], hbefore, hx, hr, hi⟩

/-- Lists of checks one after the other report what the first of them that reports something says. -/
theorem flatMap {α : Type} {f : α → List Check} {g : α → Option (Reason × Byte)} {is : List α}
    (h : ∀ i ∈ is, Report (f i) (g i)) : Report (is.flatMap f) ((is.map g).findSome? id) := by
  induction is with
  | nil => exact nil
  | cons i is ih =>
    have htail := ih fun j hj => h j (List.mem_cons_of_mem _ hj)
    have hlist : ((i :: is).map g).findSome? id = (g i).or ((is.map g).findSome? id) := by
      rw [List.map_cons, List.findSome?_cons]
      cases g i <;> rfl
    rw [List.flatMap_cons, hlist]
    exact (h i List.mem_cons_self).append htail

/-- One check in front, evaluated. -/
theorem cons {b : Bool} {index : Nat} {t : List (Bool × Reason)} (hfails : c.fails ↔ b = true)
    (hindex : c.index = BitVec.ofNat 8 index) (h : Report l (failureAt t index)) :
    Report (c :: l) (failureAt ((b, c.reason) :: t) index) := by
  cases b with
  | true =>
    have hreport := cons_fails (l := l) (hfails.mpr rfl)
    rwa [hindex] at hreport
  | false => exact cons_passes (fun hc => absurd (hfails.mp hc) (by simp)) h

end Check.Report

/-! ### Codes out of range -/

theorem Pattern.ofCode_isNone (b : Byte) : (Pattern.ofCode b).isNone = true ↔ 4 < b.toNat := by
  unfold Pattern.ofCode
  split_ifs
  case neg =>
    simp only [Option.isNone_none, true_iff]
    bv_omega
  all_goals simp [*]

theorem Level.ofCode_isNone (b : Byte) : (Level.ofCode b).isNone = true ↔ 2 < b.toNat := by
  unfold Level.ofCode
  split_ifs
  case neg =>
    simp only [Option.isNone_none, true_iff]
    bv_omega
  all_goals simp [*]

theorem Content.ofCode_isNone (b : Byte) : (Content.ofCode b).isNone = true ↔ b ≠ 0x01 ∧ b ≠ 0x02 ∧ b ≠ 0x03 := by
  unfold Content.ofCode
  split_ifs with h1 h2 h3
  case neg => exact iff_of_true rfl ⟨h1, h2, h3⟩
  all_goals simp [*]

theorem Content.ofCode_echo (b : Byte) : Content.ofCode b = some .echo ↔ b = 0x03 := by
  unfold Content.ofCode
  split_ifs with h1 h2 h3
  case neg => exact iff_of_false (by simp) h3
  all_goals simp [*]

/-- A channel is setpoint-driven by its pattern byte (R3). -/
theorem channelPattern_driven (m : Memory) (c : Fin 6) :
    (channelPattern m c).driven = true
      ↔ m.read (16 + 24 * c.val) = 0x01 ∨ m.read (16 + 24 * c.val) = 0x02 ∨ m.read (16 + 24 * c.val) = 0x03 := by
  show ((Pattern.ofCode (m.read (16 + 24 * c.val))).getD .off).driven = true ↔ _
  generalize m.read (16 + 24 * c.val) = b
  unfold Pattern.ofCode
  split_ifs with h0 h1 h2 h3 h4
  case neg => exact iff_of_false (by decide) fun h => h.elim h1 fun h => h.elim h2 h3
  all_goals simp [Pattern.driven, *]

/-! ### The header and the channel records (R11, R12) -/

theorem headerRules_report (m : Memory) : Check.Report (headerRules m) (failureAt (headerChecks m) 0) := by
  refine .cons ?period rfl (.cons ?hold rfl (.cons ?loss rfl (.cons ?reserved rfl .nil)))
  case period => exact (Bool.or_eq_true_iff.trans (or_congr decide_eq_true_iff decide_eq_true_iff)).symm
  case hold => exact decide_eq_true_iff.symm
  case loss =>
    have hzero : m.read 3 = 0 ↔ (m.read 3).toNat = 0 :=
      ⟨fun h => by rw [h]; rfl, fun h => BitVec.eq_of_toNat_eq h⟩
    exact (or_congr_left hzero).trans (Bool.or_eq_true_iff.trans (or_congr decide_eq_true_iff decide_eq_true_iff)).symm
  case reserved =>
    simp only [Memory.readAll, List.any_map, List.any_eq_true, List.mem_range, Function.comp_apply, decide_eq_true_eq]

/-- The edge times rise exactly when none is followed by one at its tick or before (R12). -/
theorem usedEdges_order (m : Memory) (c : Fin 6) :
    ((usedEdges m c).any fun k => decide (k ≠ 0) && decide (edgeTime m c k ≤ edgeTime m c (k - 1))) = true
      ↔ ∃ k, k + 1 < channelEdgeCount m c ∧ k + 1 < 4 ∧ edgeTime m c (k + 1) ≤ edgeTime m c k := by
  simp only [usedEdges, List.any_eq_true, List.mem_range, Bool.and_eq_true, decide_eq_true_eq]
  constructor
  · rintro ⟨k, hk, hne, hle⟩
    obtain ⟨j, rfl⟩ := Nat.exists_eq_succ_of_ne_zero hne
    exact ⟨j, by omega, by omega, hle⟩
  · rintro ⟨k, hn, h4, hle⟩
    exact ⟨k + 1, by omega, by omega, hle⟩

/-- A test of the edges that occur in the count. -/
theorem usedEdges_any (m : Memory) (c : Fin 6) (p : Nat → Bool) :
    (usedEdges m c).any p = true ↔ ∃ k, k < channelEdgeCount m c ∧ k < 4 ∧ p k = true := by
  simp only [usedEdges, List.any_eq_true, List.mem_range, Nat.lt_min]
  constructor
  · rintro ⟨k, ⟨h4, hn⟩, hp⟩
    exact ⟨k, hn, h4, hp⟩
  · rintro ⟨k, hn, h4, hp⟩
    exact ⟨k, ⟨h4, hn⟩, hp⟩

/-- The edges at or beyond the count are zero (R12). -/
theorem spareEdges_any (m : Memory) (c : Fin 6) :
    ((spareEdges m c).any fun k => decide (edgeTime m c k ≠ 0) || decide (edgeCode m c k ≠ 0)) = true
      ↔ ∃ k, channelEdgeCount m c ≤ k ∧ k < 4 ∧ (edgeTime m c k ≠ 0 ∨ edgeCode m c k ≠ 0) := by
  simp only [spareEdges, List.any_eq_true, List.mem_filter, List.mem_range, Bool.or_eq_true, decide_eq_true_eq]
  constructor
  · rintro ⟨k, ⟨h4, hn⟩, hp⟩
    exact ⟨k, hn, h4, hp⟩
  · rintro ⟨k, hn, h4, hp⟩
    exact ⟨k, ⟨h4, hn⟩, hp⟩

theorem channelRules_report (m : Memory) (c : Fin 6) :
    Check.Report (channelRules m c.val) (failureAt (channelChecks m c) c.val) := by
  refine .cons ?pattern rfl (.cons ?group rfl (.cons ?dead rfl (.cons ?limits rfl (.cons ?phase rfl
    (.cons ?count rfl (.cons ?order rfl (.cons ?range rfl (.cons ?level rfl .nil))))))))
  case pattern => exact (Pattern.ofCode_isNone _).symm
  case group => exact decide_eq_true_iff.symm
  case dead => exact decide_eq_true_iff.symm
  case limits => exact (Bool.or_eq_true_iff.trans (or_congr decide_eq_true_iff decide_eq_true_iff)).symm
  case phase => exact decide_eq_true_iff.symm
  case count =>
    rw [Bool.or_eq_true, decide_eq_true_eq, spareEdges_any]
    rfl
  case order => exact (usedEdges_order m c).symm
  case range =>
    rw [usedEdges_any]
    simp only [decide_eq_true_eq]
    rfl
  case level =>
    rw [usedEdges_any]
    simp only [Level.ofCode_isNone]
    rfl

/-! ### The slot map and the binding (R13) -/

theorem slotEntry_eq (m : Memory) (k : Nat) : slotEntry m k = entryAt m k := rfl

theorem SlotEntry.isConsume_iff (e : SlotEntry) : e.isConsume = true ↔ e.Consumes := by
  simp only [SlotEntry.isConsume, Bool.and_eq_true, decide_eq_true_eq]
  rfl

theorem SlotEntry.isProduce_iff (e : SlotEntry) : e.isProduce = true ↔ e.Produces := by
  simp only [SlotEntry.isProduce, Bool.and_eq_true, decide_eq_true_eq]
  rfl

theorem SlotEntry.isEcho_iff (e : SlotEntry) : e.isEcho = true ↔ e.selector = 0x03 := by
  simp only [SlotEntry.isEcho, decide_eq_true_eq, Content.ofCode_echo]

theorem SlotEntry.badRange_iff (e : SlotEntry) :
    e.badRange = true ↔ 5 < e.first ∨ e.count = 0 ∨ 6 < e.count ∨ 6 < e.first + e.count := by
  simp only [SlotEntry.badRange, Bool.or_eq_true, decide_eq_true_eq, or_assoc]

/-- A test of the entries below one. -/
theorem lower_any (m : Memory) (k : Nat) (p : SlotEntry → Bool) :
    (((List.range k).map (slotEntry m)).any p) = true ↔ ∃ j, j < k ∧ p (entryAt m j) = true := by
  simp [slotEntry_eq]

/-- An unused entry is checked for zeros alone. -/
theorem slotRules_unused {m : Memory} {k : Nat} (h : (entryAt m k).id = 0) :
    Check.Report (slotRules m k) (failureAt (slotChecks m k) k) := by
  unfold slotChecks
  dsimp only
  rw [slotEntry_eq, if_pos h]
  refine .cons ?_ rfl (fun x hx => ?_)
  · simp only [h, true_and, Bool.or_eq_true, decide_eq_true_eq, or_assoc]
  · simp only [List.mem_cons, List.not_mem_nil, or_false] at hx
    obtain rfl | rfl | rfl | rfl | rfl := hx <;> simp [SlotEntry.Consumes, SlotEntry.Produces, h]

theorem slotRules_used {m : Memory} {k : Nat} (h : (entryAt m k).id ≠ 0) :
    Check.Report (slotRules m k) (failureAt (slotChecks m k) k) := by
  unfold slotChecks
  dsimp only
  rw [slotEntry_eq, if_neg h]
  refine .cons_passes (fun hfails => h hfails.1) (.cons ?kind rfl (.cons ?duplicate rfl (.cons ?range rfl
    (.cons ?overlap rfl (.cons ?selector rfl .nil)))))
  case kind =>
    simp only [← Bool.not_or, Bool.not_eq_true', ← Bool.not_eq_true, Bool.or_eq_true, SlotEntry.isConsume_iff,
      SlotEntry.isProduce_iff, SlotEntry.Consumes, SlotEntry.Produces, not_or]
    exact ⟨fun ⟨_, hc, hp⟩ => ⟨fun hx => hc hx.2, fun hx => hp hx.2⟩,
      fun ⟨hc, hp⟩ => ⟨h, fun hx => hc ⟨h, hx⟩, fun hx => hp ⟨h, hx⟩⟩⟩
  case duplicate =>
    rw [lower_any]
    simp only [decide_eq_true_eq]
    exact and_iff_right h
  case range =>
    simp only [Bool.or_eq_true, Bool.and_eq_true, SlotEntry.isConsume_iff, SlotEntry.isProduce_iff,
      SlotEntry.badRange_iff, Bool.not_eq_true', ← Bool.not_eq_true, SlotEntry.isEcho_iff, decide_eq_true_eq, and_assoc]
  case overlap =>
    simp only [Bool.and_eq_true, SlotEntry.isConsume_iff, lower_any, SlotEntry.overlaps, decide_eq_true_eq]
  case selector =>
    simp only [Bool.or_eq_true, Bool.and_eq_true, SlotEntry.isConsume_iff, SlotEntry.isProduce_iff, decide_eq_true_eq,
      Content.ofCode_isNone]

theorem slotRules_report (m : Memory) (k : Nat) : Check.Report (slotRules m k) (failureAt (slotChecks m k) k) := by
  by_cases h : (entryAt m k).id = 0
  · exact slotRules_unused h
  · exact slotRules_used h

theorem bindingRule_report (m : Memory) (c : Fin 6) :
    Check.Report [bindingRule m c.val] (failureAt [(unbound m c, .unboundChannel)] c.val) := by
  refine .cons ?_ rfl .nil
  have hbound : ((slotEntries m).any fun e => e.isConsume && e.covers c.val) = true
      ↔ ∃ e, e < 16 ∧ (entryAt m e).Consumes ∧ (entryAt m e).first ≤ c.val
        ∧ c.val < (entryAt m e).first + (entryAt m e).count := by
    rw [slotEntries, lower_any]
    simp only [Bool.and_eq_true, SlotEntry.isConsume_iff, SlotEntry.covers, decide_eq_true_eq]
  rw [unbound, Bool.and_eq_true, channelPattern_driven, Bool.not_eq_true', ← Bool.not_eq_true, hbound]
  simp only [bindingRule, not_exists, not_and]

/-! ### An image -/

/-- Validation reports what the checks spelled in the image's bytes report (R10). -/
theorem validate_report (m : Memory) : Check.Report (imageChecks m) (validate m) := by
  have hchannels : List.range 6 = channels.map fun c => c.val := rfl
  have hheader := headerRules_report m
  have hrecords := Check.Report.flatMap (is := channels) fun c _ => channelRules_report m c
  have hslots := Check.Report.flatMap (is := List.range 16) fun k _ => slotRules_report m k
  have hbinding := Check.Report.flatMap (is := channels) fun c _ => bindingRule_report m c
  have hall := ((hheader.append hrecords).append hslots).append hbinding
  have hlist : imageChecks m = headerRules m ++ channels.flatMap (fun c => channelRules m c.val)
      ++ (List.range 16).flatMap (slotRules m) ++ channels.flatMap (fun c => [bindingRule m c.val]) := by
    unfold imageChecks
    rw [hchannels, List.flatMap_map, List.map_map, ← List.flatMap_singleton' (channels.map _), List.flatMap_map]
    rfl
  have hvalue : validate m = (((failureAt (headerChecks m) 0).or
      ((channels.map fun c => failureAt (channelChecks m c) c.val).findSome? id)).or
      (((List.range 16).map fun k => failureAt (slotChecks m k) k).findSome? id)).or
      ((channels.map fun c => failureAt [(unbound m c, .unboundChannel)] c.val).findSome? id) := by
    unfold validate
    rw [List.findSome?_append, List.findSome?_append, List.findSome?_cons]
    cases failureAt (headerChecks m) 0 <;> rfl
  rw [hlist, hvalue]
  exact hall

/-- An image passes exactly when none of the checks fails. -/
theorem validate_eq_none_iff (m : Memory) : validate m = none ↔ ∀ x ∈ imageChecks m, ¬ x.fails := by
  constructor
  · intro h
    have hreport := validate_report m
    rwa [h] at hreport
  · exact fun h => (validate_report m).unique (o' := none) h

/-- Validation answers reason and index of the first check that fails. -/
theorem validate_eq_some_iff (m : Memory) (r : Reason) (i : Byte) : validate m = some (r, i) ↔
    ∃ before x after, imageChecks m = before ++ x :: after ∧ (∀ y ∈ before, ¬ y.fails) ∧ x.fails
      ∧ x.reason = r ∧ x.index = i := by
  constructor
  · intro h
    have hreport := validate_report m
    rwa [h] at hreport
  · exact fun h => (validate_report m).unique (o' := some (r, i)) h

end Sys2Proof.Machine

/-! ## COMMIT (R14, R15) -/

namespace Sys2Proof.Machine

section
variable {s : State}

theorem commitConfig_valid (h : s.bank.shadow = .editable) (hv : validate s.bank.shadowImage = none) :
    commitConfig s = answer { s with bank := s.bank.swap } .done := by
  unfold commitConfig
  simp only [h, hv]

theorem commitConfig_invalid {r : Reason} {i : Byte} (h : s.bank.shadow = .editable)
    (hv : validate s.bank.shadowImage = some (r, i)) :
    commitConfig s = answer s .checkFailed [r.code, i] := by
  unfold commitConfig
  simp only [h, hv]
  rfl

theorem commitConfig_broken (h : s.bank.shadow = .broken) : commitConfig s = answer s .checkFailed [0x20, 0xFF] := by
  unfold commitConfig
  rw [h]
  rfl

theorem commitConfig_busy (h : s.bank.shadow = .loading ∨ s.bank.shadow = .checking) :
    commitConfig s = answer s .refusedBusy := by
  unfold commitConfig
  obtain h | h := h <;> simp only [h]

/-- The swap period a COMMIT asks for lies 1 to 255 periods ahead, or it asks for the next period (R15). -/
def State.SwapInRange (s : State) (args : List Byte) (p : Word) : Prop :=
  args = [] ∧ p = s.timer.period + 1
    ∨ args = wordBytes p ∧ 1 ≤ distance s.timer.period p ∧ distance s.timer.period p ≤ 255

theorem commitLive_busy (seq : Byte) (args : List Byte)
    (h : s.bank.commit ≠ none ∨ s.bank.shadow = .loading ∨ s.bank.shadow = .checking) :
    commitLive seq args s = answer s .refusedBusy := by
  unfold commitLive
  by_cases hc : s.bank.commit = none
  · rw [if_neg (by simp [hc]), if_pos (h.resolve_left (not_not.mpr hc))]
  · rw [if_pos (Option.isSome_iff_ne_none.mpr hc)]

theorem commitLive_broken (seq : Byte) (args : List Byte) (hc : s.bank.commit = none) (h : s.bank.shadow = .broken) :
    commitLive seq args s = answer s .checkFailed [0x20, 0xFF] := by
  unfold commitLive
  rw [if_neg (by simp [hc]), if_neg (by simp [h]), if_pos h]
  rfl

theorem swapArg_wordBytes (p : Word) : swapArg (wordBytes p) = some p := congrArg some (wordOf_bytes p)

theorem commitLive_late (seq : Byte) {p : Word} (hc : s.bank.commit = none) (h : s.bank.shadow = .editable)
    (hd : distance s.timer.period p = 0 ∨ 255 < distance s.timer.period p) :
    commitLive seq (wordBytes p) s = answer s .late := by
  unfold commitLive
  rw [if_neg (by simp [hc]), if_neg (by simp [h]), if_neg (by simp [h]), swapArg_wordBytes]
  exact if_pos (by simp [within_eq_false.mpr hd])

/-- A COMMIT in ARMED and RUN with its swap period in range is judged by validation: it fails it, … -/
theorem commitLive_invalid (seq : Byte) {args : List Byte} {p : Word} {r : Reason} {i : Byte}
    (hc : s.bank.commit = none) (h : s.bank.shadow = .editable) (hp : s.SwapInRange args p)
    (hv : validate s.bank.shadowImage = some (r, i)) : commitLive seq args s = answer s .checkFailed [r.code, i] := by
  unfold commitLive
  rw [if_neg (by simp [hc]), if_neg (by simp [h]), if_neg (by simp [h])]
  obtain ⟨rfl, rfl⟩ | ⟨rfl, hlow, hhigh⟩ := hp
  · simp only [hv]
    rfl
  · simp only [swapArg_wordBytes, within_eq_true.mpr ⟨hlow, hhigh⟩, hv]
    rfl

/-- … or passes it and freezes the shadow until the swap period. -/
theorem commitLive_valid (seq : Byte) {args : List Byte} {p : Word} (hc : s.bank.commit = none)
    (h : s.bank.shadow = .editable) (hp : s.SwapInRange args p) (hv : validate s.bank.shadowImage = none) :
    commitLive seq args s
      = answer { s with bank := { s.bank with shadow := .frozen, commit := some ⟨p, seq⟩ } } .pending := by
  unfold commitLive
  rw [if_neg (by simp [hc]), if_neg (by simp [h]), if_neg (by simp [h])]
  obtain ⟨rfl, rfl⟩ | ⟨rfl, hlow, hhigh⟩ := hp
  · simp only [hv]
    rfl
  · simp only [swapArg_wordBytes, within_eq_true.mpr ⟨hlow, hhigh⟩, hv]
    rfl

theorem ownCommit_config (seq : Byte) (args : List Byte) (h : s.node.state = .config) :
    ownCommit seq args s = commitConfig s := by
  unfold ownCommit
  rw [h]

theorem ownCommit_live (seq : Byte) (args : List Byte) (h : s.node.state = .armed ∨ s.node.state = .run) :
    ownCommit seq args s = commitLive seq args s := by
  unfold ownCommit
  obtain h | h := h <;> rw [h]

theorem ownCommit_safe (seq : Byte) (args : List Byte) (h : s.node.state = .safe) :
    ownCommit seq args s = answer s .refusedState := by
  unfold ownCommit
  rw [h]

end

/-- Settles O20: validation is `validate_eq_none_iff`; an accepted COMMIT swaps or freezes. -/
theorem commitAccepted : Obligations.CommitAccepted := by
  refine ⟨validate_eq_none_iff, fun s r htakes hn hshadow hvalid => ?config,
    fun s r p hargs htakes hn hcommit hshadow hvalid => ?live⟩
  all_goals let u : State := { s with mgmt := s.mgmt.makeRoom r.seq }
  case config =>
    have howner : ownCommit r.seq r.args u = answer { u with bank := s.bank.swap } .done := by
      rw [ownCommit_config (s := u) _ _ hn, commitConfig_valid (s := u) hshadow hvalid]
    obtain ⟨hactive, hshadowImage, hA, hB⟩ := s.bank.swap_images
    refine ⟨_, htakes.answers_cached rfl rfl howner (Nat.zero_le _) rfl, hA, hB, ?_, hactive, hshadowImage, rfl, rfl, rfl⟩
    show s.bank.active.other ≠ s.bank.active
    cases s.bank.active <;> decide
  case live =>
    have howner : ownCommit r.seq r.args u
        = answer { u with bank := { s.bank with shadow := .frozen, commit := some ⟨p, r.seq⟩ } } .pending := by
      rw [ownCommit_live (s := u) _ _ hn, commitLive_valid (s := u) _ hcommit hshadow hargs hvalid]
    exact htakes.answers_cached rfl rfl howner (Nat.zero_le _) rfl

/-- Settles O21: the tests of CONFIG and those of ARMED and RUN in order; validation is `validate_eq_some_iff`. -/
theorem commitRefusals : Obligations.CommitRefusals := by
  refine ⟨validate_eq_some_iff, rfl, fun s r htakes => ?_⟩
  intro reply
  let u : State := { s with mgmt := s.mgmt.makeRoom r.seq }
  have hconfig {st : Status} {data : List Byte} (hn : s.node.state = .config) (h : commitConfig u = answer u st data)
      (hd : data.length ≤ 2) : reply st data :=
    htakes.kept rfl rfl ((ownCommit_config (s := u) _ _ hn).trans h) hd
  refine ⟨fun hn => ?_, fun hn h => ?_, fun hn h => ?_, fun x i hn h hv => ?_, fun hn => ?_⟩
  · exact htakes.kept rfl rfl (ownCommit_safe (s := u) _ _ hn) (Nat.zero_le _)
  · exact hconfig hn (commitConfig_broken (s := u) h) (Nat.le_refl 2)
  · exact hconfig hn (commitConfig_busy (s := u) h) (Nat.zero_le _)
  · exact hconfig hn (commitConfig_invalid (s := u) h hv) (Nat.le_refl 2)
  have hlive {st : Status} {data : List Byte} (h : commitLive r.seq r.args u = answer u st data)
      (hd : data.length ≤ 2) : reply st data :=
    htakes.kept rfl rfl ((ownCommit_live (s := u) _ _ hn).trans h) hd
  refine ⟨fun h => ?_, fun hc h => ?_, fun p hc h hargs hd => ?_, fun x i hc h hargs hv => ?_⟩
  · exact hlive (commitLive_busy (s := u) _ _ h) (Nat.zero_le _)
  · exact hlive (commitLive_broken (s := u) _ _ hc h) (Nat.le_refl 2)
  · exact hlive (hargs ▸ commitLive_late (s := u) _ hc h hd) (Nat.zero_le _)
  · obtain ⟨p, hp⟩ : ∃ p, u.SwapInRange r.args p := by
      obtain hnil | ⟨p, hp⟩ := hargs
      · exact ⟨_, .inl ⟨hnil, rfl⟩⟩
      · exact ⟨p, .inr hp⟩
    exact hlive (commitLive_invalid (s := u) _ hc h hp hv) (Nat.le_refl 2)

end Sys2Proof.Machine

/-! ## Restore timers, trips, planned changes and dead times (R70, R87, R90 to R92, R95, R97) -/

namespace Sys2Proof.Machine

/-! ### Inputs and groups after ticks -/

/-- The live levels stay while ticks pass (R84). -/
theorem State.elapse_asserted (s : State) (n : Nat) (i : Fin 4) :
    ((s.elapse n).prot.inputs.get i).asserted = (s.prot.inputs.get i).asserted := by
  obtain ⟨hentry, hpin⟩ := s.elapse_input n i
  rw [TripInput.asserted, TripInput.asserted, hentry, hpin]

theorem State.elapse_groupOf (s : State) (n : Nat) (c : Fin 6) : (s.elapse n).groupOf c = s.groupOf c := by
  rw [State.groupOf, State.groupOf, s.elapse_bank]

theorem Four.mem_toList {α : Type} {x : Four α} {a : α} : a ∈ x.toList ↔ ∃ i, x.get i = a := by
  simp only [Four.toList, List.mem_cons, List.not_mem_nil, or_false]
  constructor
  · rintro (rfl | rfl | rfl | rfl)
    exacts [⟨0, rfl⟩, ⟨1, rfl⟩, ⟨2, rfl⟩, ⟨3, rfl⟩]
  · rintro ⟨i, rfl⟩
    fin_cases i <;> simp [Four.get]

/-- The greatest of a list, read from its left fold. -/
theorem foldl_max_spec (l : List Nat) (a : Nat) :
    a ≤ l.foldl max a ∧ (∀ x ∈ l, x ≤ l.foldl max a) ∧ (l.foldl max a = a ∨ l.foldl max a ∈ l) := by
  induction l generalizing a with
  | nil => simp
  | cons x l ih =>
    obtain ⟨hlow, hall, hmem⟩ := ih (max a x)
    simp only [List.foldl_cons, List.mem_cons]
    refine ⟨by omega, ?_, ?_⟩
    · rintro y (rfl | hy)
      · omega
      · exact hall y hy
    · obtain h | h := hmem
      · rw [h]
        omega
      · exact .inr (.inr h)

/-- The restore delays of the ASSERTED TIMED inputs of a group (R95). -/
def Protection.delays (p : Protection) (g : Fin 2) : List Nat :=
  (p.inputs.toList.filter fun i =>
      decide (i.entry.group = some g) && decide (i.entry.action = .timed) && i.asserted).map
    fun i => i.entry.delay.toNat

theorem Protection.mem_delays (p : Protection) (g : Fin 2) (d : Nat) :
    d ∈ p.delays g ↔ ∃ i, ((p.inputs.get i).entry.group = some g ∧ (p.inputs.get i).entry.action = .timed
      ∧ (p.inputs.get i).asserted = true) ∧ (p.inputs.get i).entry.delay.toNat = d := by
  simp only [Protection.delays, List.mem_map, List.mem_filter, Bool.and_eq_true, decide_eq_true_eq, and_assoc]
  constructor
  · rintro ⟨x, hx, h⟩
    obtain ⟨i, rfl⟩ := Four.mem_toList.mp hx
    exact ⟨i, h⟩
  · rintro ⟨i, h⟩
    exact ⟨_, Four.mem_toList.mpr ⟨i, rfl⟩, h⟩

/-- The longest restore delay is that of one of the ASSERTED TIMED inputs of the group, and no other is longer (R95). -/
theorem Protection.longestDelay_spec (p : Protection) (g : Fin 2) (h : p.anyAsserted g .timed = true) :
    ∃ i, ((p.inputs.get i).entry.group = some g ∧ (p.inputs.get i).entry.action = .timed
        ∧ (p.inputs.get i).asserted = true)
      ∧ (∀ j, (p.inputs.get j).entry.group = some g ∧ (p.inputs.get j).entry.action = .timed
          ∧ (p.inputs.get j).asserted = true →
        (p.inputs.get j).entry.delay.toNat ≤ (p.inputs.get i).entry.delay.toNat)
      ∧ p.longestDelay g = (p.inputs.get i).entry.delay.toNat := by
  obtain ⟨-, hall, hfold⟩ :
      0 ≤ p.longestDelay g ∧ (∀ d ∈ p.delays g, d ≤ p.longestDelay g)
        ∧ (p.longestDelay g = 0 ∨ p.longestDelay g ∈ p.delays g) := foldl_max_spec (p.delays g) 0
  have hin : p.longestDelay g ∈ p.delays g := by
    obtain hzero | hin := hfold
    · obtain ⟨i, hi⟩ := (p.anyAsserted_iff g .timed).mp h
      have hle := hall _ ((p.mem_delays g _).mpr ⟨i, hi, rfl⟩)
      exact (p.mem_delays g _).mpr ⟨i, hi, by omega⟩
    · exact hin
  obtain ⟨k, hk, hdelay⟩ := (p.mem_delays g _).mp hin
  exact ⟨k, hk, fun j hj => hdelay ▸ hall _ ((p.mem_delays g _).mpr ⟨j, hj, rfl⟩), hdelay.symm⟩

/-! ### The expiry of a restore timer (R95) -/

theorem exec_restoreTimerExpiry (s : State) (g : Fin 2) (hlive : s.node.state = .armed ∨ s.node.state = .run)
    (hoff : (s.prot.groups.get g).state = .timedOff) :
    exec (.restoreTimerExpiry g) s = .next ((s.elapse (s.prot.groups.get g).timer).restoreExpiry g) :=
  congrArg Host.Outcome.next (if_pos ⟨(NodeState.live_iff _).mpr hlive, hoff⟩)

/-- Settles O52: an asserted TIMED input restarts the timer; without one the group becomes ENABLED. -/
theorem restoreTimerExpires : Obligations.RestoreTimerExpires := by
  intro s g hlive hoff u holds
  have hholds (i : Fin 4) : holds i ↔ (u.prot.inputs.get i).entry.group = some g
      ∧ (u.prot.inputs.get i).entry.action = .timed ∧ (u.prot.inputs.get i).asserted = true := by
    rw [s.elapse_asserted, (s.elapse_input _ i).1]
  rw [exec_restoreTimerExpiry s g hlive hoff]
  refine ⟨fun ⟨i, hi⟩ => ⟨_, rfl, ?restart⟩, fun hnone => ⟨_, rfl, ?enable⟩⟩
  case restart =>
    have hany : u.prot.anyAsserted g .timed = true := (u.prot.anyAsserted_iff g .timed).mpr ⟨i, (hholds i).mp hi⟩
    obtain ⟨k, hk, hlongest, hdelay⟩ := u.prot.longestDelay_spec g hany
    rw [State.restoreExpiry, if_pos hany, hdelay, (s.elapse_input _ k).1]
    refine ⟨rfl, fun h hne => ?_, k, (hholds k).mpr hk, fun j hj => ?_, ?_⟩
    · simp only [State.modifyGroup, Two.get_modify, if_neg hne]
      rfl
    · have hle := hlongest j ((hholds j).mp hj)
      rwa [(s.elapse_input _ j).1, (s.elapse_input _ k).1] at hle
    · simp only [State.modifyGroup, Two.get_modify_self]
      rfl
  case enable =>
    have hany : ¬ u.prot.anyAsserted g .timed = true := fun h =>
      have ⟨i, hi⟩ := (u.prot.anyAsserted_iff g .timed).mp h
      hnone i ((hholds i).mpr hi)
    obtain ⟨heq, hgroups, hgen, hdriven⟩ := u.enableGroup_spec g
    rw [State.restoreExpiry, if_neg hany]
    refine ⟨heq, hgroups, fun c => ?_, hdriven⟩
    rw [hgen, s.elapse_node, s.elapse_groupOf]

/-! ### A trip (R87, R90 to R92, R97, R103) -/

theorem exec_trip (s : State) (i : Fin 4) (h : (s.prot.inputs.get i).canTrip s.node.state = true) :
    exec (.trip i) s = .next ((s.elapse (s.prot.inputs.get i).toTrip).detectTrip i) :=
  congrArg Host.Outcome.next (if_pos h)

/-- A trip's count or record touches the counters and the log alone. -/
theorem State.noteTrip_eq (s : State) (i : Fin 4) (g : Fin 2) (a : TripAction) :
    s.noteTrip i g a = { s with counters := (s.noteTrip i g a).counters, log := (s.noteTrip i g a).log } := by
  cases a <;> rfl

/-- The trip and its escalation before the pins follow. -/
def State.tripWork (s : State) (i : Fin 4) (g : Fin 2) (a : TripAction) (delay : Nat) : State :=
  let old := s.prot.groups.get g
  let w := s.noteTrip i g a
  if escalates old (old.trip a delay) then
    { w with
      prot := { s.prot with groups := s.prot.groups.modify g fun x => { x.trip a delay with state := .latched, timer := 0 } }
      log := w.log.append ⟨0, .escalated, s.node.state, s.timer.period, s.timer.tick, some g, some i, none⟩ }
  else { w with prot := { s.prot with groups := s.prot.groups.modify g fun x => x.trip a delay } }

theorem Two.modify_modify {α : Type} (x : Two α) (g : Fin 2) (f f' : α → α) :
    (x.modify g f).modify g f' = x.modify g fun a => f' (f a) := by
  fin_cases g <;> rfl

theorem State.tripGroup_eq (s : State) (i : Fin 4) (g : Fin 2) (a : TripAction) (delay : Nat) :
    s.tripGroup i g a delay = (s.tripWork i g a delay).drive := by
  have hnote := s.noteTrip_eq i g a
  unfold State.tripGroup State.tripWork
  dsimp only
  refine congrArg State.drive ?_
  split
  · simp only [State.modifyGroup, State.record, Two.modify_modify]
    rw [hnote]
  · simp only [State.modifyGroup]
    rw [hnote]

/-- Driving a state that stands where `s` stood before the event. -/
theorem State.drive_spec {s w : State} (hinputs : w.prot.inputs = s.prot.inputs) (hnode : w.node.state = s.node.state)
    (himage : w.bank.activeImage = s.bank.activeImage) (hoff : ∀ c, (w.gen.get c).output = (s.gen.get c).output) :
    w.drive = { w with gen := w.drive.gen, prot := w.drive.prot } ∧ w.drive.prot.groups = w.prot.groups
      ∧ (∀ c, w.drive.gen.get c = { w.gen.get c with output := (w.drive.gen.get c).output }) ∧ s.Driven w.drive := by
  obtain ⟨heq, hgroups, hgen⟩ := w.drive_eq
  exact ⟨heq, hgroups, hgen, w.drive_driven.from hinputs hnode himage hoff⟩

section
variable (s : State) (i : Fin 4) (g : Fin 2) (a : TripAction) (delay : Nat)

theorem State.tripWork_eq :
    s.tripWork i g a delay =
      { s with
        prot := { s.prot with groups := (s.tripWork i g a delay).prot.groups }
        counters := (s.noteTrip i g a).counters, log := (s.tripWork i g a delay).log } := by
  unfold State.tripWork
  dsimp only
  split <;> cases a <;> rfl

theorem State.tripWork_log :
    (s.tripWork i g a delay).log =
      if escalates (s.prot.groups.get g) ((s.prot.groups.get g).trip a delay) then
        (s.noteTrip i g a).log.append
          ⟨0, .escalated, s.node.state, s.timer.period, s.timer.tick, some g, some i, none⟩
      else (s.noteTrip i g a).log := by
  unfold State.tripWork
  dsimp only
  split <;> rfl

theorem State.tripWork_group :
    (s.tripWork i g a delay).prot.groups.get g =
      if escalates (s.prot.groups.get g) ((s.prot.groups.get g).trip a delay) then
        { (s.prot.groups.get g).trip a delay with state := .latched, timer := 0 }
      else (s.prot.groups.get g).trip a delay := by
  unfold State.tripWork
  dsimp only
  split <;> simp only [Two.get_modify_self]

theorem State.tripWork_other {h : Fin 2} (hne : h ≠ g) :
    (s.tripWork i g a delay).prot.groups.get h = s.prot.groups.get h := by
  unfold State.tripWork
  dsimp only
  split <;> simp only [Two.get_modify, if_neg hne]

end

/-- A trip out of ENABLED that is no LATCH trip escalates when the new count reaches E (R97). -/
theorem escalates_trip (old : ProtGroup) (a : TripAction) (delay : Nat) :
    escalates old (old.trip a delay) = true ↔ old.state = .enabled ∧ a ≠ .latch ∧ old.entry.e ≠ 0
      ∧ old.entry.e.toNat ≤ if old.state = .enabled then min 255 (old.esc + 1) else old.esc := by
  simp only [escalates, Bool.and_eq_true, decide_eq_true_eq, and_assoc]
  refine and_congr_right fun hen => and_congr_left fun _ => ?_
  cases a <;> simp [ProtGroup.trip, hen, GroupState.strength, TripAction.target]

/-! The three tables of 5.4 for a trip that does not escalate (R90 to R92). -/

theorem ProtGroup.trip_cycle (old : ProtGroup) (delay : Nat) : old.trip .cycle delay =
    { old with
      state := if old.state = .enabled then .cycleOff else old.state
      esc := if old.state = .enabled then min 255 (old.esc + 1) else old.esc } := by
  unfold ProtGroup.trip
  cases old.state <;> rfl

theorem ProtGroup.trip_timed (old : ProtGroup) (delay : Nat) : old.trip .timed delay =
    { old with
      state := if old.state = .latched then .latched else .timedOff
      timer := if old.state = .latched then old.timer else delay
      esc := if old.state = .enabled then min 255 (old.esc + 1) else old.esc } := by
  unfold ProtGroup.trip ProtGroup.timerAfter
  cases old.state <;> rfl

theorem ProtGroup.trip_latch (old : ProtGroup) (delay : Nat) : old.trip .latch delay =
    { old with
      state := .latched
      timer := if old.state = .latched then old.timer else 0
      esc := if old.state = .enabled then min 255 (old.esc + 1) else old.esc } := by
  unfold ProtGroup.trip ProtGroup.timerAfter
  cases old.state <;> rfl

/-- Settles O50: the trip's own work on its group, channel by channel the pins after it, and the three tables of 5.4. -/
theorem tripActsOnItsGroup : Obligations.TripActsOnItsGroup := by
  intro s i g hcan hgroup x u v old esc up note
  have hentry : (u.prot.inputs.get i).entry = x.entry := (s.elapse_input _ i).1
  let a := x.entry.action
  let delay := x.entry.delay.toNat
  let w := v.tripWork i g a delay
  have hexec : exec (.trip i) s = .next w.drive := by
    rw [exec_trip s i hcan, ← v.tripGroup_eq i g a delay]
    show Host.Outcome.next (u.detectTrip i) = _
    unfold State.detectTrip
    simp only [hentry, show x.entry.group = some g from hgroup]
    rfl
  have hw : w = _ := v.tripWork_eq i g a delay
  have hwgen : w.gen = u.gen := by rw [hw]
  obtain ⟨heq, hgroups, hgen, hdriven⟩ := State.drive_spec (s := v) (w := w) (by rw [hw]) (by rw [hw]) (by rw [hw])
    fun c => by rw [hwgen]
  have hcounters : w.drive.counters = (v.noteTrip i g a).counters := by
    rw [heq, hw]
  have hlog : w.drive.log = _ := v.tripWork_log i g a delay
  have hown : w.drive.prot.groups.get g = _ := hgroups ▸ v.tripWork_group i g a delay
  change _ = if escalates old (old.trip a delay) = true then _ else _ at hlog
  change _ = if escalates old (old.trip a delay) = true then _ else old.trip a delay at hown
  have hup : escalates old (old.trip a delay) = true ↔ up := escalates_trip old a delay
  have hcount : u.counters = s.counters := s.elapse_counters _
  have hrecord : u.log = s.log := s.elapse_log _
  have hnode : u.node = s.node := s.elapse_node _
  have hnote (l : FaultLog) (cause : FaultCause) :
      l.append ⟨0, cause, v.node.state, v.timer.period, v.timer.tick, some g, some i, none⟩ = note l cause := by
    show l.append ⟨0, cause, u.node.state, _, _, _, _, _⟩ = _
    rw [hnode]
  refine ⟨_, hexec, ?eq, fun h hne => ?other, fun c => hwgen ▸ hgen c, hdriven, fun ha => ?cycle, fun ha => ?timed,
    fun ha => ?latch⟩
  case eq =>
    rw [heq, hw]
  case other =>
    rw [hgroups]
    exact v.tripWork_other i g a delay hne
  case cycle =>
    rw [show a = .cycle from ha] at hcounters hlog hown hup
    refine ⟨hcount ▸ hcounters, ?_, ?_⟩
    · rw [hlog, hnote]
      by_cases h : up
      · rw [if_pos (hup.mpr h), if_pos h]
        exact congrArg (note · _) hrecord
      · rw [if_neg (mt hup.mp h), if_neg h]
        exact hrecord
    · rw [hown]
      by_cases h : up
      · rw [if_pos (hup.mpr h), if_pos h, if_pos h, ProtGroup.trip_cycle]
      · rw [if_neg (mt hup.mp h), if_neg h, if_neg h, ProtGroup.trip_cycle]
  case timed =>
    rw [show a = .timed from ha] at hcounters hlog hown hup
    have hfirst : (v.noteTrip i g .timed).log = note s.log .tripTimed := hrecord ▸ hnote u.log _
    refine ⟨hcount ▸ hcounters, ?_, ?_⟩
    · rw [hlog, hnote, hfirst]
      by_cases h : up
      · rw [if_pos (hup.mpr h), if_pos h]
      · rw [if_neg (mt hup.mp h), if_neg h]
    · rw [hown]
      by_cases h : up
      · rw [if_pos (hup.mpr h), if_pos (.inl h), if_pos h, ProtGroup.trip_timed]
      · rw [if_neg (mt hup.mp h), if_neg h, ProtGroup.trip_timed]
        simp only [h, false_or]
        rfl
  case latch =>
    rw [show a = .latch from ha] at hcounters hlog hown hup
    have hnever : ¬ escalates old (old.trip .latch delay) = true := fun h => (hup.mp h).2.1 ha
    rw [if_neg hnever] at hlog hown
    rw [ProtGroup.trip_latch] at hown
    exact ⟨hcount ▸ hcounters, hlog.trans (hrecord ▸ hnote u.log _), hown⟩

/-! ### Planned changes and dead times in RUN (R70, R76) -/

theorem exec_plannedChange (s : State) (c : Fin 6) {a : Nat} (hrun : s.node.state = .run)
    (hnext : (s.gen.get c).nextChange = some a) :
    let u := s.elapse (a - s.timer.tick)
    exec (.plannedChange c) s = .next
      (State.drive { u with
        gen := u.gen.modify c fun g => g.change a u.timer.tick (channelDead u.bank.activeImage c) }) := by
  show execPlannedChange c s = _
  unfold execPlannedChange
  rw [hnext]
  exact congrArg Host.Outcome.next (if_pos hrun)

theorem exec_plannedChange_none (s : State) (c : Fin 6)
    (h : s.node.state ≠ .run ∨ (s.gen.get c).nextChange = none) : exec (.plannedChange c) s = .next s := by
  show execPlannedChange c s = _
  unfold execPlannedChange
  cases hnext : (s.gen.get c).nextChange with
  | none => rfl
  | some a => exact congrArg Host.Outcome.next (if_neg (h.resolve_right (by simp [hnext])))

/-- Driving after one channel's generator alone has changed. -/
theorem State.drive_channel (u : State) (c : Fin 6) {f : ChannelGen → ChannelGen}
    (hf : (f (u.gen.get c)).output = (u.gen.get c).output) :
    let t := State.drive { u with gen := u.gen.modify c f }
    t = { u with gen := t.gen, prot := t.prot } ∧ t.prot.groups = u.prot.groups
      ∧ (∀ d, d ≠ c → t.gen.get d = { u.gen.get d with output := (t.gen.get d).output })
      ∧ t.gen.get c = { f (u.gen.get c) with output := (t.gen.get c).output } ∧ u.Driven t := by
  intro t
  obtain ⟨heq, hgroups, hgen, hdriven⟩ :=
    State.drive_spec (s := u) (w := { u with gen := u.gen.modify c f }) rfl rfl rfl fun d => by
      by_cases h : d = c
      · subst h
        rw [Six.get_modify_self, hf]
      · rw [Six.get_modify, if_neg h]
  refine ⟨heq, hgroups, fun d hne => ?_, ?_, hdriven⟩
  · simpa only [Six.get_modify, if_neg hne] using hgen d
  · simpa only [Six.get_modify_self] using hgen c

/-- The dead time a planned change begins: on a direct change, what is left of it at this tick (R70). -/
theorem deadAfter_eq (prev next : Level) (d late : Nat) :
    deadAfter prev next d late =
      if prev = .hi ∧ next = .lo ∨ prev = .lo ∧ next = .hi then (if d - late = 0 then none else some (d - late))
      else none := by
  have hdirect : directChange prev next = true ↔ prev = .hi ∧ next = .lo ∨ prev = .lo ∧ next = .hi := by
    cases prev <;> cases next <;> decide
  unfold deadAfter
  by_cases hchange : prev = .hi ∧ next = .lo ∨ prev = .lo ∧ next = .hi
  · by_cases hlate : late < d
    · rw [if_pos ⟨hdirect.mpr hchange, hlate⟩, if_pos hchange, if_neg (by omega)]
    · rw [if_neg fun h => hlate h.2, if_pos hchange, if_pos (by omega)]
  · rw [if_neg fun h => hchange (hdirect.mp h.1), if_neg hchange]

/-- Settles O45: the next interval comes into force by `ChannelGen.change`, and the pins follow. -/
theorem plannedChangeTakesTheNextInterval : Obligations.PlannedChangeTakesTheNextInterval := by
  refine ⟨fun s c a hrun hnext => ?_, exec_plannedChange_none⟩
  intro u g prev next left
  let f (x : ChannelGen) := x.change a u.timer.tick (channelDead u.bank.activeImage c)
  obtain ⟨heq, hgroups, hother, hown, hdriven⟩ := u.drive_channel c (f := f) rfl
  refine ⟨_, exec_plannedChange s c hrun hnext, heq, hgroups, hother, hown.trans ?_, hdriven⟩
  have hdead : (f g).dead = if prev = .hi ∧ next = .lo ∨ prev = .lo ∧ next = .hi then
      (if left = 0 then none else some left) else none := by
    show deadAfter prev next (channelDead u.bank.activeImage c) (u.timer.tick - a) = _
    rw [deadAfter_eq, s.elapse_bank]
  have hflag : (f g).flag = g.flag.filter fun k => a ≤ k := by
    show (match g.flag with | some k => if k < a then none else some k | none => none) = _
    cases g.flag with
    | none => rfl
    | some k => by_cases h : k < a <;> simp [Option.filter, h]
  rw [← hdead, ← hflag]
  rfl

theorem State.changeDue_false_iff (s : State) (c : Fin 6) (hrun : s.node.state = .run) :
    s.changeDue c = false ↔ ∀ a, (s.gen.get c).nextChange = some a → s.timer.tick < a := by
  unfold State.changeDue
  cases (s.gen.get c).nextChange <;> simp [hrun]

/-- Settles O46: a dead-time end that comes about clears the dead time and the pins follow. -/
theorem deadTimeEndShowsTheRun : Obligations.DeadTimeEndShowsTheRun := by
  intro s c
  refine ⟨fun hnone => ?_, fun r hdead => ?_⟩
  · show execDeadTimeEnd c s = _
    unfold execDeadTimeEnd
    rw [hnone]
  · intro u taken
    have hexec : exec (.deadTimeEnd c) s = .next
        (if u.deadEndDue c then State.drive { u with gen := u.gen.modify c fun g => { g with dead := none } } else s) := by
      show execDeadTimeEnd c s = _
      unfold execDeadTimeEnd
      rw [hdead]
    have htaken : u.deadEndDue c = true ↔ taken := by
      have hnow : (u.gen.get c).dead = some 0 := by simp [u, s.elapse_gen, hdead]
      have hnext : (u.gen.get c).nextChange = (s.gen.get c).nextChange := by
        rw [s.elapse_gen]
        rfl
      have hnode : u.node = s.node := s.elapse_node _
      simp only [State.deadEndDue, hnow, hnode, decide_true, Bool.and_true, Bool.and_eq_true, decide_eq_true_eq,
        Bool.not_eq_true']
      constructor
      · rintro ⟨⟨hrun, hchange⟩, hwrap⟩
        exact ⟨hrun, hwrap, hnext ▸ (u.changeDue_false_iff c (by rw [hnode, hrun])).mp hchange⟩
      · rintro ⟨hrun, hwrap, hchange⟩
        exact ⟨⟨hrun, (u.changeDue_false_iff c (by rw [hnode, hrun])).mpr (hnext ▸ hchange)⟩, hwrap⟩
    refine ⟨fun h => by rw [hexec, if_neg (mt htaken.mp h)], fun h => ?_⟩
    exact ⟨_, by rw [hexec, if_pos (htaken.mpr h)], u.drive_channel c (f := fun g => { g with dead := none }) rfl⟩

end Sys2Proof.Machine

/-! ## The period boundary (R16, R23, R30, R33, R35, R51, R56) -/

namespace Sys2Proof.Machine

/-! ### What a boundary comes down to -/

theorem exec_periodBoundary (s : State) (h : s.timer.running = true) :
    exec .periodBoundary s = .next (s.elapse s.timer.toBoundary).boundary :=
  congrArg Host.Outcome.next (if_pos h)

theorem exec_periodBoundary_stopped (s : State) (h : s.timer.running = false) : exec .periodBoundary s = .next s :=
  congrArg Host.Outcome.next (if_neg (by simp [h]))

/-- The next period with the old plans at their last tick: the state on which the blocks that act by period work. -/
def State.turned (s : State) : State :=
  { s.nextPeriod with gen := (s.elapse s.timer.toBoundary).finishPlans.gen }

theorem State.turned_gen (s : State) (c : Fin 6) : s.turned.gen.get c = s.closed c := s.finishPlans_closed c

/-- Outside RUN no plan is under way. -/
theorem State.turned_idle {s : State} (h : s.node.state ≠ .run) : s.turned = s.nextPeriod := by
  have hgen : (s.elapse s.timer.toBoundary).finishPlans.gen = s.nextPeriod.gen := by
    unfold State.finishPlans
    rw [if_neg (by rwa [s.elapse_node]), s.nextPeriod_gen]
  unfold State.turned
  rw [hgen]

theorem exec_periodBoundary_live {s : State} (h : s.timer.running = true)
    (hlive : s.node.state = .armed ∨ s.node.state = .run) :
    exec .periodBoundary s = .next s.turned.boundaryWork := by
  rw [exec_periodBoundary s h, s.boundary_spec, if_pos ((NodeState.live_iff _).mpr hlive)]
  rfl

/-- The node as the blocks find it at a boundary that is not lost, with the groups turned. -/
def State.entered (s : State) : State :=
  { s.turned with node := s.nodeAtBoundary, prot := s.nextPeriod.prot.boundary }

/-- A boundary that is not lost hands the node over to the queues, by its state (R30, R94, R98). -/
theorem State.boundaryWork_turned {s : State} (hlive : s.node.state = .armed ∨ s.node.state = .run)
    (hloss : s.node.loss + 1 < imageLossTimeout s.nextPeriod.bank.activeImage) :
    s.turned.boundaryWork =
      if s.nodeAtBoundary.state = .run then s.entered.runBoundary else s.entered.armedBoundary := by
  have hnode : s.turned.node = s.node := s.nextPeriod_node
  have htest : s.turned.lossTest = { s.turned with node := { s.node with loss := s.node.loss + 1 } } := by
    unfold State.lossTest
    rw [hnode]
    exact if_neg (Nat.not_le.mpr hloss)
  have hstart : State.startEntry { s.turned with node := { s.node with loss := s.node.loss + 1 } }
      = { s.turned with node := s.nodeAtBoundary } := by
    unfold State.startEntry State.nodeAtBoundary
    by_cases hs : s.node.state = .armed ∧ s.node.start = some (s.timer.period + 1)
    · rw [if_pos hs]
      exact if_pos hs
    · rw [if_neg hs]
      exact if_neg hs
  unfold State.boundaryWork
  rw [htest]
  dsimp only
  rw [if_pos ((NodeState.live_iff _).mpr hlive), hstart]
  rfl

/-- Settles O39: in SAFE the boundary is the next period, and no block acts. -/
theorem boundaryInSafe : Obligations.BoundaryInSafe := by
  refine ⟨fun s hrunning hsafe hcommit => ⟨?_, ?_⟩, exec_periodBoundary_stopped⟩
  · rw [exec_periodBoundary s hrunning, s.boundary_spec, if_neg (by simp [hsafe, NodeState.live])]
    exact congrArg Host.Outcome.next (State.turned_idle (by simp [hsafe]))
  · have hswap : (s.elapse s.timer.toBoundary).swapAt (s.timer.period + 1) = s.elapse s.timer.toBoundary := by
      unfold State.swapAt
      rw [s.elapse_bank, hcommit]
    unfold State.nextPeriod
    dsimp only
    rw [hswap]

/-! ### A boundary that ends in SAFE (R33, R35, R56) -/

/-- Entry into SAFE keeps the echo values of the channels alone. -/
theorem State.safeFrom_gen (s : State) (cause : SafeCause) {gen : Six ChannelGen}
    (h : ∀ c, (gen.get c).echo = (s.gen.get c).echo) :
    State.safeFrom { s with gen := gen } cause = s.safeFrom cause := by
  unfold State.safeFrom
  dsimp only
  congr 1
  exact Six.ext_get fun c => by simp [h c]

theorem State.closed_echo (s : State) (c : Fin 6) : (s.closed c).echo = (s.nextPeriod.gen.get c).echo := by
  rw [s.nextPeriod_gen]
  unfold State.closed
  dsimp only
  split
  · unfold ChannelGen.finish
    split <;> rfl
  · rfl

theorem State.turned_echo (s : State) (c : Fin 6) : (s.turned.gen.get c).echo = (s.nextPeriod.gen.get c).echo := by
  rw [s.turned_gen, s.closed_echo]

theorem heldCount_selections (s : State) :
    heldCount (s.queue.mapIdx fun d _ => s.selected d) = (channels.filter fun d => (s.selected d).held).length := by
  have hlist : (s.queue.mapIdx fun d _ => s.selected d).toList = channels.map s.selected := rfl
  rw [heldCount, hlist, List.filter_map, List.length_map]
  rfl

/-- The lowest-numbered channel that raises (R56). -/
theorem raisingChannel_eq_some {l : Six Selection} {c : Fin 6} (hc : (l.get c).raises = true)
    (hlow : ∀ d, d < c → (l.get d).raises = false) : raisingChannel l = some c := by
  have hchannels : channels = List.finRange 6 := rfl
  rw [raisingChannel, hchannels, List.find?_eq_some_iff_getElem]
  exact ⟨hc, c.val, by simp, by simp, fun j hj => by simpa using hlow ⟨j, by omega⟩ hj⟩

theorem raisingChannel_eq_none {l : Six Selection} (h : ∀ c, (l.get c).raises = false) : raisingChannel l = none :=
  List.find?_eq_none.mpr fun c _ => by simp [h c]

theorem State.entered_selections (s : State) : s.entered.selections = s.queue.mapIdx fun d _ => s.selected d :=
  s.nextPeriod_selections

/-- Into the start period or in RUN, the node is in RUN (R30). -/
theorem State.nodeAtBoundary_run {s : State}
    (h : s.node.state = .run ∨ s.node.state = .armed ∧ s.node.start = some (s.timer.period + 1)) :
    s.nodeAtBoundary.state = .run := by
  unfold State.nodeAtBoundary
  split
  · rfl
  · rename_i hstart
    exact h.resolve_right hstart

/-- Settles O44: the loss test and the raised hold limit each make the whole entry into SAFE. -/
theorem boundaryEntersSafe : Obligations.BoundaryEntersSafe := by
  refine ⟨fun s hrunning hlive hloss => ?loss, fun s c hrunning hrun hloss hc hlow => ?hold⟩
  case loss =>
    intro v
    let w : State := { s.turned with node := { s.node with loss := s.node.loss + 1 } }
    have hlivew : w.node.state.live = true := (NodeState.live_iff _).mpr hlive
    have htest : s.turned.lossTest = w.enterSafe .linkLoss (some .linkLoss) none := by
      unfold State.lossTest
      rw [show s.turned.node = s.node from s.nextPeriod_node]
      exact if_pos hloss
    have hwork : s.turned.boundaryWork = w.enterSafe .linkLoss (some .linkLoss) none := by
      unfold State.boundaryWork
      rw [htest, w.enterSafe_live _ _ _ hlivew]
      exact if_neg (by simp [State.safeFrom, NodeState.live])
    have hsafe : w.safeFrom .linkLoss = v.safeFrom .linkLoss :=
      State.safeFrom_gen v .linkLoss s.turned_echo
    have hlog : w.logAfter (some .linkLoss) none
        = s.log.append ⟨0, .linkLoss, s.node.state, s.timer.period + 1, 0, none, none, none⟩ := by
      show s.nextPeriod.log.append _ = _
      rw [s.nextPeriod_log]
      rfl
    rw [exec_periodBoundary_live hrunning hlive, hwork, w.enterSafe_live _ _ _ hlivew, hsafe, hlog]
  case hold =>
    intro n v
    have hlive : s.node.state = .armed ∨ s.node.state = .run := hrun.elim .inr fun h => .inl h.1
    have hstate : s.nodeAtBoundary.state = .run := State.nodeAtBoundary_run hrun
    let w : State := { s.entered with queue := v.queue, counters := v.counters }
    have hlivew : w.node.state.live = true := (NodeState.live_iff _).mpr (.inr hstate)
    have hwork : s.entered.runBoundary = w.enterSafe .holdLimit (some .holdLimit) (some c) := by
      have hraise : raisingChannel (s.queue.mapIdx fun d _ => s.selected d) = some c :=
        raisingChannel_eq_some (by simpa using hc) fun d hd => by simpa using hlow d hd
      unfold State.runBoundary
      dsimp only
      rw [s.entered_selections, hraise, heldCount_selections]
      rfl
    have hsafe : w.safeFrom .holdLimit = v.safeFrom .holdLimit :=
      State.safeFrom_gen v .holdLimit s.turned_echo
    have hlog : w.logAfter (some .holdLimit) (some c)
        = s.log.append ⟨0, .holdLimit, .run, s.timer.period + 1, 0, none, none, some c⟩ := by
      show s.nextPeriod.log.append ⟨0, .holdLimit, s.nodeAtBoundary.state, _, _, _, _, _⟩ = _
      rw [s.nextPeriod_log, hstate]
      rfl
    rw [exec_periodBoundary_live hrunning hlive, State.boundaryWork_turned hlive hloss, if_pos hstate, hwork,
      w.enterSafe_live _ _ _ hlivew, hsafe, hlog]

/-! ### A boundary in ARMED (R51, R94, R98) -/

/-- The groups' work at a boundary, group by group (R94, R98). -/
theorem State.GroupsTurned.boundary {s t : State} (h : t.prot.groups = s.prot.boundary.groups) : s.GroupsTurned t := by
  intro g
  have hquiet : s.prot.anyAsserted g .cycle = false ↔ ∀ i, (s.prot.inputs.get i).entry.group = some g →
      (s.prot.inputs.get i).entry.action = .cycle → (s.prot.inputs.get i).asserted = false :=
    s.prot.anyAsserted_false_iff g .cycle
  rw [h]
  simp only [Protection.boundary, Two.get_mapIdx, ProtGroup.boundary, hquiet]

/-- Settles O40: the queues record and drop their due heads, the groups turn. -/
theorem boundaryInArmed : Obligations.BoundaryInArmed := by
  intro s hrunning harmed hstart w m hloss
  have hstate : s.nodeAtBoundary.state = .armed := by
    unfold State.nodeAtBoundary
    rwa [if_neg fun h => hstart h.2]
  have hexec : exec .periodBoundary s = .next s.entered.armedBoundary := by
    rw [exec_periodBoundary_live hrunning (.inl harmed), State.boundaryWork_turned (.inl harmed) hloss,
      if_neg (by simp [hstate])]
  have hturned : s.turned = w := State.turned_idle (by simp [harmed])
  have hqueue (c : Fin 6) : s.entered.armedBoundary.queue.get c
      = (s.queue.get c).boundaryArmed m c (s.timer.period + 1) := by
    simp only [State.armedBoundary, Six.get_mapIdx]
    rw [show s.entered.queue = s.queue from s.nextPeriod_queue]
    rfl
  refine ⟨_, hexec, ?_, .boundary rfl, rfl, fun c => ⟨fun hnone => ?_, fun x rest hrecords hx => ?_⟩⟩
  · show ({ s.turned with node := _, prot := _, queue := _ } : State) = _
    rw [hturned]
    rfl
  · rw [hqueue, ChannelQueue.boundaryArmed, (ChannelQueue.due_none hnone).1]
  · obtain ⟨hdue, hrest⟩ := ChannelQueue.due_head hrecords hx
    rw [hqueue, ChannelQueue.boundaryArmed, hdue, hrest]
    simp only [Pattern.driven_iff]

/-! ### The swap (R16) -/

/-- The work after a swap leaves the bank and the engine, unless it ends in SAFE with a commit pending (R19). -/
theorem State.enterSafe_noCommit (s : State) (cause : SafeCause) (rec : Option FaultCause) (channel : Option (Fin 6))
    (h : s.bank.commit = none) :
    (s.enterSafe cause rec channel).bank = s.bank ∧ (s.enterSafe cause rec channel).mgmt = s.mgmt := by
  by_cases hlive : s.node.state.live = true
  · rw [s.enterSafe_live _ _ _ hlive]
    constructor
    · simp only [State.safeFrom, h, Option.isSome_none, Bool.false_eq_true, if_false]
      rw [← h]
    · simp [State.safeFrom, h]
  · rw [s.enterSafe_idle _ _ _ (by simpa using hlive)]
    exact ⟨rfl, rfl⟩

theorem State.startEntry_bank_mgmt (s : State) : s.startEntry.bank = s.bank ∧ s.startEntry.mgmt = s.mgmt := by
  unfold State.startEntry
  split <;> exact ⟨rfl, rfl⟩

theorem State.startEntry_safe (s : State) (h : s.node.state = .safe) : s.startEntry.node.state = .safe := by
  unfold State.startEntry
  rw [if_neg (by simp [h]), h]

/-- With no commit pending the work of a boundary leaves bank and engine. -/
theorem State.boundaryWork_noCommit (s : State) (h : s.bank.commit = none) :
    s.boundaryWork.bank = s.bank ∧ s.boundaryWork.mgmt = s.mgmt := by
  have hkeeps : WorkKeeps fun t => t.bank = s.bank ∧ t.mgmt = s.mgmt :=
    { gen := fun _ _ h => h
      loss := fun _ _ h => h
      start := fun t ht => t.startEntry_bank_mgmt.imp (·.trans ht.1) (·.trans ht.2)
      groups := fun _ _ h => h
      queue := fun _ _ h => h
      count := fun _ _ _ h => h
      safe := fun t c f k _ ht =>
        (t.enterSafe_noCommit c f k (ht.1 ▸ h)).imp (·.trans ht.1) (·.trans ht.2)
      drive := fun _ h => h }
  exact hkeeps.boundaryWork ⟨rfl, rfl⟩

/-- The work of a boundary that does not end in SAFE leaves bank and engine. -/
theorem State.boundaryWork_stays (s : State) (h : s.boundaryWork.node.state ≠ .safe) :
    s.boundaryWork.bank = s.bank ∧ s.boundaryWork.mgmt = s.mgmt := by
  have hkeeps : WorkKeeps fun t => t.node.state ≠ .safe → t.bank = s.bank ∧ t.mgmt = s.mgmt :=
    { gen := fun _ _ h => h
      loss := fun _ _ h => h
      start := fun t ht hs =>
        have hstays := ht (mt t.startEntry_safe hs)
        t.startEntry_bank_mgmt.imp (·.trans hstays.1) (·.trans hstays.2)
      groups := fun _ _ h => h
      queue := fun _ _ h => h
      count := fun _ _ _ h => h
      safe := fun t c f k _ ht hs => by
        by_cases hlive : t.node.state.live = true
        · rw [t.enterSafe_live _ _ _ hlive] at hs
          exact absurd rfl hs
        · rw [t.enterSafe_idle _ _ _ (by simpa using hlive)] at hs ⊢
          exact ht hs
      drive := fun _ h => h }
  exact hkeeps.boundaryWork (fun _ => ⟨rfl, rfl⟩) h

/-- Settles O43: the swap comes before the blocks' work, which then has no commit to cancel. -/
theorem boundarySwapsThePendingCommit : Obligations.BoundarySwapsThePendingCommit := by
  intro s hrunning hlive
  refine ⟨_, exec_periodBoundary_live hrunning hlive, ?_, fun seq hcommit => ?_, fun hother hsafe => ?_⟩
  · rw [State.boundaryWork_period]
    rfl
  · have hswap : s.turned.bank = { s.bank.swap with commit := none }
        ∧ s.turned.mgmt = s.mgmt.complete seq .commit .done [] := by
      show ((s.elapse _).swapAt _).bank = _ ∧ ((s.elapse _).swapAt _).mgmt = _
      unfold State.swapAt
      rw [s.elapse_bank, s.elapse_mgmt, hcommit]
      dsimp only
      rw [if_pos rfl]
      exact ⟨rfl, rfl⟩
    obtain ⟨hbank, hmgmt⟩ := s.turned.boundaryWork_noCommit (by rw [hswap.1])
    exact ⟨hbank.trans hswap.1, hmgmt.trans hswap.2⟩
  · have hswap : s.turned.bank = s.bank ∧ s.turned.mgmt = s.mgmt := by
      show ((s.elapse _).swapAt _).bank = _ ∧ ((s.elapse _).swapAt _).mgmt = _
      unfold State.swapAt
      rw [s.elapse_bank]
      cases hcommit : s.bank.commit with
      | none => exact ⟨s.elapse_bank _, s.elapse_mgmt _⟩
      | some p =>
        dsimp only
        rw [if_neg (hother p hcommit)]
        exact ⟨s.elapse_bank _, s.elapse_mgmt _⟩
    obtain ⟨hbank, hmgmt⟩ := s.turned.boundaryWork_stays hsafe
    exact ⟨hbank.trans hswap.1, hmgmt.trans hswap.2⟩

end Sys2Proof.Machine

/-! ## The period boundary in RUN (R52, R54, R58, R64, R65, R68 to R73, R80) -/

namespace Sys2Proof.Machine

/-! ### The fields of a channel record (11.5, 11.8) -/

/-- The pattern read from its byte, code by code. -/
theorem channelPattern_iff (m : Memory) (c : Fin 6) :
    (channelPattern m c = .leading ↔ m.read (16 + 24 * c.val) = 0x01)
      ∧ (channelPattern m c = .trailing ↔ m.read (16 + 24 * c.val) = 0x02)
      ∧ (channelPattern m c = .centered ↔ m.read (16 + 24 * c.val) = 0x03)
      ∧ (channelPattern m c = .fixed ↔ m.read (16 + 24 * c.val) = 0x04) := by
  have hpattern : channelPattern m c = (Pattern.ofCode (m.read (16 + 24 * c.val))).getD .off := rfl
  rw [hpattern]
  generalize m.read (16 + 24 * c.val) = b
  unfold Pattern.ofCode
  split_ifs with h0 h1 h2 h3 h4
  case neg => exact ⟨iff_of_false (by decide) h1, iff_of_false (by decide) h2, iff_of_false (by decide) h3,
    iff_of_false (by decide) h4⟩
  all_goals subst b; decide

/-- A state code that section 11.8 does not define reads as OFF (log 17). -/
theorem Level.ofCode_getD (b : Byte) :
    (Level.ofCode b).getD .off = if b = 0x01 then .hi else if b = 0x02 then .lo else .off := by
  unfold Level.ofCode
  by_cases h0 : b = 0
  · subst b
    rfl
  · rw [if_neg h0]
    by_cases h1 : b = 1
    · rw [if_pos h1, if_pos h1]
      rfl
    · rw [if_neg h1, if_neg h1]
      by_cases h2 : b = 2
      · rw [if_pos h2, if_pos h2]
        rfl
      · rw [if_neg h2, if_neg h2]
        rfl

/-! ### The boundary -/

/-- Driven also from a state of another live node state: an event that enters RUN from ARMED (R79, R85). -/
theorem State.Driven.from_live {s u t : State} (h : u.Driven t) (hinputs : u.prot.inputs = s.prot.inputs)
    (hlive : u.node.state.live = s.node.state.live) (himage : u.bank.activeImage = s.bank.activeImage)
    (houtput : ∀ c, (u.gen.get c).output = (s.gen.get c).output) : s.Driven t where
  outputs := h.outputs
  inputs i := by
    have hgroup (c : Fin 6) : u.groupOf c = s.groupOf c := by rw [State.groupOf, State.groupOf, himage]
    simpa only [hinputs, hlive, hgroup, houtput] using h.inputs i

/-- The dead time at the start of a period, from the closing state and the first interval (R71). -/
theorem deadAtStart_eq (closing first : Level) (carried : Option Nat) (d : Nat) :
    deadAtStart closing first carried d =
      if closing = first ∧ first ≠ .off then carried.filter fun r => r ≠ 0
      else if closing = .hi ∧ first = .lo ∨ closing = .lo ∧ first = .hi then (if d = 0 then none else some d)
      else none := by
  unfold deadAtStart
  rw [deadAfter_eq, Nat.sub_zero]
  cases carried with
  | none => rfl
  | some r => by_cases hr : r = 0 <;> simp [Option.filter, hr]

theorem State.closed_output (s : State) (c : Fin 6) : (s.closed c).output = (s.nextPeriod.gen.get c).output := by
  rw [s.nextPeriod_gen]
  unfold State.closed
  dsimp only
  split
  · unfold ChannelGen.finish
    split <;> rfl
  · rfl

/-- The counts and plans of a boundary in RUN before the pins follow. -/
def State.built (s : State) : State :=
  let m := s.nextPeriod.bank.activeImage
  let L := s.nextPeriod.timer.len
  { s.entered with
    queue := s.queue.mapIdx fun c _ => (s.selected c).q
    gen := s.turned.gen.mapIdx fun c g => g.start (planFor m c L (s.selected c).handed) (echoFor m c L (s.selected c).handed)
      (channelDead m c)
    counters :=
      (s.nextPeriod.counters.add (channels.filter fun c => (s.selected c).held).length .holds).add
        (channels.map fun c => clampsFor m c L (s.selected c).handed).sum .clamps }

/-- Without a raised hold limit a boundary in RUN builds the plans and drives the pins. -/
theorem State.runBoundary_entered {s : State} (h : ∀ c, (s.selected c).raises = false) :
    s.entered.runBoundary = s.built.drive := by
  have hraise : raisingChannel (s.queue.mapIdx fun d _ => s.selected d) = none :=
    raisingChannel_eq_none fun c => by simpa using h c
  unfold State.runBoundary
  dsimp only
  rw [s.entered_selections, hraise, heldCount_selections]
  unfold State.buildPlans
  simp only [Six.get_mapIdx]
  rfl

/-- Settles O42: selections, plans and counts are `State.built`, and the pins follow; the fields of the channel records are
read byte by byte. -/
theorem boundaryInRun : Obligations.BoundaryInRun := by
  refine ⟨fun s hrunning hrun => ?boundary, fun m c => ?fields⟩
  case boundary =>
    intro w m L hloss hraises
    have hlive : s.node.state = .armed ∨ s.node.state = .run := hrun.elim .inr fun h => .inl h.1
    have hstate : s.nodeAtBoundary.state = .run := State.nodeAtBoundary_run hrun
    have hexec : exec .periodBoundary s = .next s.built.drive := by
      rw [exec_periodBoundary_live hrunning hlive, State.boundaryWork_turned hlive hloss, if_pos hstate,
        State.runBoundary_entered hraises]
    obtain ⟨heq, hgroups, hgen⟩ := s.built.drive_eq
    have hbuilt (c : Fin 6) : s.built.gen.get c =
        (s.closed c).start (planFor m c L (s.selected c).handed) (echoFor m c L (s.selected c).handed)
          (channelDead m c) := by
      simp only [State.built, Six.get_mapIdx, s.turned_gen]
      rfl
    have hplan (c : Fin 6) : (s.built.drive.gen.get c).plan = planFor m c L (s.selected c).handed := by
      rw [hgen, hbuilt]
      rfl
    have hecho (c : Fin 6) : (s.built.drive.gen.get c).echo = echoFor m c L (s.selected c).handed := by
      rw [hgen, hbuilt]
      rfl
    have hdriven : w.Driven s.built.drive :=
      s.built.drive_driven.from_live rfl
        (by
          rw [show s.built.node = s.nodeAtBoundary from rfl, show w.node = s.node from s.nextPeriod_node, hstate,
            (NodeState.live_iff _).mpr hlive]
          rfl)
        rfl fun c => by rw [hbuilt, ← s.closed_output]; rfl
    refine ⟨_, hexec, ?eq, hstate, fun c => ?queue, fun c => ?channel, .boundary hgroups, hdriven⟩
    case eq => exact heq
    case queue =>
      show (s.queue.mapIdx fun c _ => (s.selected c).q).get c = _
      rw [Six.get_mapIdx]
    case channel =>
      intro plan echo
      have hfor {x : Handed} (h : (s.selected c).handed = x) : plan = planFor m c L x ∧ echo = echoFor m c L x :=
        h ▸ ⟨hplan c, hecho c⟩
      refine ⟨fun _ _ h => hfor h, fun h => hfor h, fun h hfixed => ⟨(hfor h).1.trans (if_neg hfixed), (hfor h).2⟩,
        fun h hfixed => ⟨(hfor h).1.trans (if_pos hfixed), (hfor h).2⟩, ?_⟩
      rw [← deadAtStart_eq]
      refine (hgen c).trans ?_
      rw [hbuilt, show plan = _ from hplan c, show echo = _ from hecho c]
      rfl
  case fields =>
    intro base
    obtain ⟨h1, h2, h3, h4⟩ := channelPattern_iff m c
    refine ⟨h1, h2, h3, h4, rfl, rfl, rfl, List.map_congr_left fun k _ => ?_⟩
    rw [Level.ofCode_getD]
    rfl

end Sys2Proof.Machine

/-! ## The passing of ticks (logs 3 to 5; R22, R70, R87, R95, R169, R171) -/

namespace Sys2Proof.Machine

/-! ### The events that are due -/

theorem tripInputs_mem (i : Fin 4) : i ∈ tripInputs := by fin_cases i <;> simp [tripInputs]

theorem groups_mem (g : Fin 2) : g ∈ groups := by fin_cases g <;> simp [groups]

/-- The rows of the list of due events. -/
theorem State.mem_dueEvents (s : State) (e : Instr) :
    e ∈ s.dueEvents ↔
      (s.timer.running = true ∧ s.timer.wrapDue = true) ∧ e = .periodBoundary
      ∨ (∃ c, s.changeDue c = true ∧ .plannedChange c = e) ∨ (∃ c, s.deadEndDue c = true ∧ .deadTimeEnd c = e)
      ∨ (∃ i, s.tripDue i = true ∧ .trip i = e) ∨ (∃ g, s.restoreDue g = true ∧ .restoreTimerExpiry g = e)
      ∨ (s.load.state = .receiving ∧ s.load.gap = 0) ∧ e = .gapTimerExpiry
      ∨ (s.load.state = .checking ∧ s.load.checkLeft = 0) ∧ e = .checkCompletion := by
  have hif (p : Prop) [Decidable p] (x : Instr) : e ∈ (if p then [x] else []) ↔ p ∧ e = x := by
    by_cases hp : p <;> simp [hp]
  simp only [State.dueEvents, List.mem_append, hif, List.mem_map, List.mem_filter, channels_mem, tripInputs_mem,
    groups_mem, true_and, Bool.and_eq_true, or_assoc]

theorem State.deadEndDue_iff (s : State) (c : Fin 6) : s.deadEndDue c = true ↔ s.Due (.deadTimeEnd c) := by
  have hchange (hrun : s.node.state = .run) : s.changeDue c = false ↔
      ∀ x, (s.gen.get c).plan[(s.gen.get c).cur + 1]? = some x → s.timer.tick < x.first := by
    rw [← Bool.not_eq_true, s.changeDue_iff]
    simp [hrun]
  simp only [State.deadEndDue, Bool.and_eq_true, decide_eq_true_eq, Bool.not_eq_true', State.Due]
  constructor
  · rintro ⟨⟨⟨hrun, hdead⟩, hnot⟩, hwrap⟩
    exact ⟨hrun, hdead, hwrap, (hchange hrun).mp hnot⟩
  · rintro ⟨hrun, hdead, hwrap, hnot⟩
    exact ⟨⟨⟨hrun, hdead⟩, (hchange hrun).mpr hnot⟩, hwrap⟩

theorem State.tripDue_iff (s : State) (i : Fin 4) : s.tripDue i = true ↔ s.Due (.trip i) := by
  simp only [State.tripDue, TripInput.canTrip, TripInput.detecting, Bool.and_eq_true, NodeState.live_iff,
    decide_eq_true_eq, Bool.not_eq_true', Option.isSome_iff_ne_none, State.Due, and_assoc]

theorem State.restoreDue_iff (s : State) (g : Fin 2) : s.restoreDue g = true ↔ s.Due (.restoreTimerExpiry g) := by
  simp only [State.restoreDue, Bool.and_eq_true, NodeState.live_iff, decide_eq_true_eq, State.Due, and_assoc]

theorem State.mem_dueEvents_iff (s : State) (e : Instr) : e ∈ s.dueEvents ↔ s.Due e := by
  rw [s.mem_dueEvents]
  cases e
  case plannedChange c => simp [s.changeDue_iff, State.Due]
  case deadTimeEnd c => simp [s.deadEndDue_iff]
  case trip i => simp [s.tripDue_iff]
  case restoreTimerExpiry g => simp [s.restoreDue_iff]
  all_goals simp [State.Due]

/-! ### Ticks one by one -/

namespace TripInput

variable (i : TripInput) (n : Nat) (st : NodeState)

/-- Where an input is not judged, its count is 0 (R85). -/
theorem elapse_not_detecting (h : i.detecting st = false) :
    i.elapse n st = { i with count := 0, blank := 0, blanked := false, episode := false } := by
  unfold TripInput.elapse
  rw [if_neg (by simp [h])]

theorem elapse_detecting (h : i.detecting st = true) :
    i.elapse n st = { i with count := i.countAfter n, blank := i.blank - n, blanked := decide (n < i.blank)
                             episode := i.episode && i.asserted } := by
  unfold TripInput.elapse
  rw [if_pos h]

theorem judged_le : i.judged ≤ i.entry.filter.toNat := by
  unfold TripInput.judged
  split <;> omega

/-- The count after one tick (R86, R87). -/
theorem countAfter_one : i.countAfter 1 =
    if i.asserted then
      if i.blanked then 0 else if i.episode then i.count else min i.entry.filter.toNat (i.count + 1)
    else 0 := by
  have hahead : i.blankedAhead 1 = 0 := Nat.zero_min _
  unfold TripInput.countAfter TripInput.judged
  rw [hahead]
  by_cases hblanked : i.blanked = true <;> simp [hblanked]

/-- The count of an ASSERTED input with a clear episode flag once its blanking is over: of the ticks since, or, without a
blanked tick ahead, from the present count on (R86, R87). -/
theorem countAfter_counting (hasserted : i.asserted = true) (hepisode : i.episode = false) (hn : 1 ≤ n)
    (hb : i.blank ≤ n) : i.countAfter n =
      min i.entry.filter.toNat (if 2 ≤ i.blank then n - i.blank else i.judged + (n - 1)) := by
  have hahead : i.blankedAhead n = i.blank - 1 := by
    unfold TripInput.blankedAhead
    omega
  unfold TripInput.countAfter
  rw [if_pos hasserted, if_neg (by simp [hepisode]), hahead]
  by_cases h2 : 2 ≤ i.blank
  · rw [if_pos (by omega), if_pos h2]
    congr 1
    omega
  · rw [if_neg (by omega), if_neg h2]

/-- One more tick (R86, R87). -/
theorem countAfter_succ (hn : 1 ≤ n) : i.countAfter (n + 1) =
    if i.asserted then
      if n < i.blank then 0 else if i.episode then i.countAfter n else min i.entry.filter.toNat (i.countAfter n + 1)
    else 0 := by
  have hjudged := i.judged_le
  by_cases hasserted : i.asserted = true
  · have hahead : i.blankedAhead (n + 1) = min n (i.blank - 1) := rfl
    rw [if_pos hasserted]
    by_cases hb : n < i.blank
    · have hall : i.blankedAhead (n + 1) = n := by omega
      unfold TripInput.countAfter
      rw [if_pos hasserted, if_pos hb, hall, if_pos (Or.inr hn), if_pos hn]
      simp
    · rw [if_neg hb]
      by_cases hepisode : i.episode = true
      · have hsame : i.blankedAhead (n + 1) = i.blankedAhead n := by
          unfold TripInput.blankedAhead
          omega
        unfold TripInput.countAfter
        simp only [hasserted, hepisode, if_true, hsame]
      · have hclear : i.episode = false := by simpa using hepisode
        rw [if_neg hepisode, i.countAfter_counting _ hasserted hclear (by omega) (by omega),
          i.countAfter_counting _ hasserted hclear hn (by omega)]
        split <;> omega
  · rw [if_neg hasserted]
    exact if_neg hasserted

/-- Ticks pass one by one. -/
theorem elapse_succ (hn : 1 ≤ n) : i.elapse (n + 1) st = (i.elapse n st).elapse 1 st := by
  by_cases hdetecting : i.detecting st = true
  · have hcount := i.countAfter_succ n hn
    let y := i.elapse n st
    have hy : y = _ := i.elapse_detecting n st hdetecting
    have hstill : y.detecting st = true := by
      rw [hy]
      exact hdetecting
    have hcountY : y.countAfter 1 = i.countAfter (n + 1) := by
      rw [y.countAfter_one, hcount, show y.asserted = i.asserted from i.asserted_elapse n st, hy]
      by_cases hasserted : i.asserted = true
      · simp only [hasserted, if_true, Bool.and_true, decide_eq_true_eq]
      · rw [if_neg hasserted, if_neg hasserted]
    have hlast : decide (n + 1 < i.blank) = decide (1 < i.blank - n) := by
      congr 1
      exact propext (by omega)
    rw [y.elapse_detecting 1 st hstill, hcountY, i.elapse_detecting (n + 1) st hdetecting,
      show y.asserted = i.asserted from i.asserted_elapse n st, hy, hlast, Nat.sub_sub]
    simp
  · have hoff : i.detecting st = false := by simpa using hdetecting
    rw [i.elapse_not_detecting (n + 1) st hoff, i.elapse_not_detecting n st hoff,
      elapse_not_detecting { i with count := 0, blank := 0, blanked := false, episode := false } 1 st hoff]

end TripInput

namespace PeriodTimer

variable (t : PeriodTimer) (n : Nat)

theorem elapse_within (hcounts : t.running = true ∧ t.wrapDue = false) (hin : t.tick + n < t.len) :
    t.elapse n = { t with tick := t.tick + n } := by
  unfold PeriodTimer.elapse
  rw [if_pos hcounts, if_pos hin]

theorem elapse_past (hcounts : t.running = true ∧ t.wrapDue = false) (hpast : t.len ≤ t.tick + n) :
    t.elapse n = { t with tick := t.len - 1, wrapDue := true } := by
  unfold PeriodTimer.elapse
  rw [if_pos hcounts, if_neg (Nat.not_lt.mpr hpast)]

theorem elapse_still (hstill : ¬ (t.running = true ∧ t.wrapDue = false)) : t.elapse n = t := by
  unfold PeriodTimer.elapse
  rw [if_neg hstill]

theorem elapse_succ : t.elapse (n + 1) = (t.elapse n).elapse 1 := by
  by_cases hcounts : t.running = true ∧ t.wrapDue = false
  · by_cases hin : t.tick + n < t.len
    · have hstep := t.elapse_within n hcounts hin
      have hcounts' : (t.elapse n).running = true ∧ (t.elapse n).wrapDue = false := hstep ▸ hcounts
      by_cases hnext : t.tick + (n + 1) < t.len
      · rw [t.elapse_within _ hcounts hnext, (t.elapse n).elapse_within 1 hcounts' (by rw [hstep]; omega), hstep]
        rfl
      · rw [t.elapse_past _ hcounts (by omega), (t.elapse n).elapse_past 1 hcounts' (by rw [hstep]; dsimp only; omega),
          hstep]
    · rw [t.elapse_past n hcounts (by omega), t.elapse_past _ hcounts (by omega), elapse_still _ _ (by simp)]
  · rw [t.elapse_still _ hcounts, t.elapse_still _ hcounts, t.elapse_still _ hcounts]

theorem elapse_wrapDue (hcounts : t.running = true ∧ t.wrapDue = false) :
    (t.elapse n).wrapDue = decide (t.len ≤ t.tick + n) := by
  by_cases hin : t.tick + n < t.len
  · rw [t.elapse_within n hcounts hin, decide_eq_false (by omega)]
    exact hcounts.2
  · rw [t.elapse_past n hcounts (by omega), decide_eq_true (by omega)]

end PeriodTimer

theorem ProtGroup.elapse_succ (g : ProtGroup) (n : Nat) (st : NodeState) :
    g.elapse (n + 1) st = (g.elapse n st).elapse 1 st := by
  unfold ProtGroup.elapse
  by_cases hruns : st.live = true ∧ g.state = .timedOff
  · rw [if_pos hruns, if_pos hruns, if_pos (by exact hruns), Nat.sub_sub]
  · rw [if_neg hruns, if_neg hruns, if_neg hruns]

theorem ChannelGen.elapse_succ (g : ChannelGen) (n : Nat) : g.elapse (n + 1) = (g.elapse n).elapse 1 := by
  unfold ChannelGen.elapse
  cases g.dead <;> simp [Nat.sub_sub]

theorem LoadJob.elapse_succ (l : LoadJob) (n : Nat) : l.elapse (n + 1) = (l.elapse n).elapse 1 := by
  unfold LoadJob.elapse
  cases h : l.state <;> simp [h, Nat.sub_sub]

/-- What passes in `n` ticks, when it is not none. -/
theorem State.elapse_pos (s : State) {n : Nat} (hn : n ≠ 0) :
    s.elapse n = { s with
      timer := s.timer.elapse n
      prot := { inputs := s.prot.inputs.map fun i => i.elapse n s.node.state
                groups := s.prot.groups.map fun g => g.elapse n s.node.state }
      gen := s.gen.map fun g => g.elapse n, load := s.load.elapse n } := by
  unfold State.elapse
  rw [if_neg hn]

theorem Six.map_map {α β γ : Type} (x : Six α) (f : α → β) (g : β → γ) : (x.map f).map g = x.map fun a => g (f a) := rfl

theorem Four.map_map {α β γ : Type} (x : Four α) (f : α → β) (g : β → γ) : (x.map f).map g = x.map fun a => g (f a) :=
  rfl

theorem Two.map_map {α β γ : Type} (x : Two α) (f : α → β) (g : β → γ) : (x.map f).map g = x.map fun a => g (f a) := rfl

/-- The ticks before an event given as a command are single ticks (log 4). -/
theorem State.elapse_succ (s : State) (n : Nat) : s.elapse (n + 1) = (s.elapse n).elapse 1 := by
  obtain rfl | hn := Nat.eq_zero_or_pos n
  · rw [s.elapse_zero]
  · rw [s.elapse_pos (by omega), (s.elapse n).elapse_pos Nat.one_ne_zero, s.elapse_pos (by omega)]
    simp only [Six.map_map, Four.map_map, Two.map_map, ← PeriodTimer.elapse_succ, ← ProtGroup.elapse_succ,
      ← ChannelGen.elapse_succ, ← LoadJob.elapse_succ, ← TripInput.elapse_succ _ n _ hn]

/-! ### When a boundary and a trip are due -/

theorem State.elapse_wrapDue (s : State) (n : Nat) (hrunning : s.timer.running = true) (hwrap : s.timer.wrapDue = false)
    (htick : s.timer.tick < s.timer.len) :
    (s.elapse n).timer.wrapDue = decide (s.timer.len ≤ s.timer.tick + n) := by
  by_cases hn : n = 0
  · rw [hn, s.elapse_zero, hwrap, decide_eq_false (by omega)]
  · rw [s.elapse_pos hn]
    exact s.timer.elapse_wrapDue n ⟨hrunning, hwrap⟩

/-- A boundary is due after `toBoundary` ticks and not before (R23). -/
theorem State.toBoundary_due (s : State) (hrunning : s.timer.running = true) (htick : s.timer.tick < s.timer.len) :
    (s.elapse s.timer.toBoundary).Due .periodBoundary
      ∧ ∀ k, k < s.timer.toBoundary → ¬ (s.elapse k).Due .periodBoundary := by
  unfold PeriodTimer.toBoundary
  by_cases hwrap : s.timer.wrapDue = true
  · rw [if_pos hwrap, s.elapse_zero]
    exact ⟨⟨hrunning, hwrap⟩, fun k hk => absurd hk (Nat.not_lt_zero k)⟩
  · have hclear : s.timer.wrapDue = false := by simpa using hwrap
    rw [if_neg hwrap]
    refine ⟨⟨by rw [s.elapse_running, hrunning], ?_⟩, fun k hk hdue => ?_⟩
    · rw [s.elapse_wrapDue _ hrunning hclear htick, decide_eq_true (by omega)]
    · have hover := hdue.2
      rw [s.elapse_wrapDue _ hrunning hclear htick, decide_eq_true_eq] at hover
      omega

/-- The present tick completes the input's filter (R87). -/
def TripInput.Completes (i : TripInput) : Prop := i.blanked = false ∧ i.count = i.entry.filter.toNat

/-- After ticks the filter is complete when they reach past the blanking by the filter, or, without a blanked tick ahead,
complete the count (R86, R87). -/
theorem TripInput.completes_elapse_iff (i : TripInput) {n : Nat} {st : NodeState} (hdetecting : i.detecting st = true)
    (hasserted : i.asserted = true) (hepisode : i.episode = false) (hn : 1 ≤ n) :
    (i.elapse n st).Completes ↔ i.blank ≤ n
      ∧ i.entry.filter.toNat ≤ if 2 ≤ i.blank then n - i.blank else i.judged + (n - 1) := by
  rw [i.elapse_detecting n st hdetecting]
  unfold TripInput.Completes
  rw [decide_eq_false_iff_not, Nat.not_lt]
  refine and_congr_right fun hb => ?_
  dsimp only
  rw [i.countAfter_counting n hasserted hepisode hn hb]
  exact min_eq_left_iff

/-- `toTrip` is the first tick that completes the filter (R86, R87). -/
theorem TripInput.toTrip_first (i : TripInput) {st : NodeState} (hdetecting : i.detecting st = true)
    (hasserted : i.asserted = true) (hepisode : i.episode = false) (hcount : i.count ≤ i.entry.filter.toNat) :
    (i.toTrip = 0 → i.Completes) ∧ (1 ≤ i.toTrip → (i.elapse i.toTrip st).Completes)
      ∧ (0 < i.toTrip → ¬ i.Completes) ∧ ∀ k, 1 ≤ k → k < i.toTrip → ¬ (i.elapse k st).Completes := by
  have hiff {k : Nat} (hk : 1 ≤ k) := i.completes_elapse_iff hdetecting hasserted hepisode hk
  have hjudged : i.judged = if i.blanked then 0 else min i.entry.filter.toNat (i.count + 1) := rfl
  have hto : i.toTrip = if i.blanked then max i.blank 1 + i.entry.filter.toNat
      else if i.count = i.entry.filter.toNat then 0
      else if 2 ≤ i.blank then i.blank + i.entry.filter.toNat
      else i.entry.filter.toNat - i.count := rfl
  by_cases hblanked : i.blanked = true
  · rw [if_pos hblanked] at hto hjudged
    have hnot : ¬ i.Completes := fun h => by simp [h.1] at hblanked
    refine ⟨fun h => by omega, fun h => (hiff h).mpr ?_, fun _ => hnot, fun k hk hlt hc => ?_⟩
    · split <;> omega
    · have hc := (hiff hk).mp hc
      split at hc <;> omega
  · have hclear : i.blanked = false := by simpa using hblanked
    rw [if_neg hblanked] at hto hjudged
    by_cases hfull : i.count = i.entry.filter.toNat
    · rw [if_pos hfull] at hto
      exact ⟨fun _ => ⟨hclear, hfull⟩, fun h => by omega, fun h => by omega, fun k hk hlt => by omega⟩
    · rw [if_neg hfull] at hto
      refine ⟨fun h => ?_, fun h => (hiff h).mpr ?_, fun _ h => hfull h.2, fun k hk hlt hc => ?_⟩
      · split at hto <;> omega
      · split at hto <;> split <;> omega
      · have hc := (hiff hk).mp hc
        split at hto <;> split at hc <;> omega

theorem State.elapse_input_eq (s : State) {n : Nat} (hn : n ≠ 0) (i : Fin 4) :
    (s.elapse n).prot.inputs.get i = (s.prot.inputs.get i).elapse n s.node.state := by
  rw [s.elapse_pos hn]
  exact Four.get_map _ _ _

/-- Due on an input that can trip: its filter is complete. -/
theorem State.due_trip_iff (s : State) (i : Fin 4) (h : (s.prot.inputs.get i).canTrip s.node.state = true) :
    s.Due (.trip i) ↔ (s.prot.inputs.get i).Completes := by
  simp only [← s.tripDue_iff, State.tripDue, h, Bool.true_and, Bool.and_eq_true, Bool.not_eq_true', decide_eq_true_eq]
  rfl

theorem TripInput.canTrip_elapse (i : TripInput) (n : Nat) {st : NodeState} (h : i.canTrip st = true) :
    (i.elapse n st).canTrip st = true := by
  simp only [TripInput.canTrip, Bool.and_eq_true, Bool.not_eq_true'] at h ⊢
  obtain ⟨⟨hdetecting, hasserted⟩, hepisode⟩ := h
  rw [i.asserted_elapse, i.elapse_detecting n st hdetecting]
  exact ⟨⟨hdetecting, hasserted⟩, by simp [hepisode]⟩

/-- A trip is due after `toTrip` ticks and not before (R87). -/
theorem State.toTrip_due (s : State) (i : Fin 4) (h : (s.prot.inputs.get i).canTrip s.node.state = true)
    (hcount : (s.prot.inputs.get i).count ≤ (s.prot.inputs.get i).entry.filter.toNat) :
    (s.elapse (s.prot.inputs.get i).toTrip).Due (.trip i)
      ∧ ∀ k, k < (s.prot.inputs.get i).toTrip → ¬ (s.elapse k).Due (.trip i) := by
  have hparts := h
  simp only [TripInput.canTrip, Bool.and_eq_true, Bool.not_eq_true'] at hparts
  obtain ⟨⟨hdetecting, hasserted⟩, hepisode⟩ := hparts
  obtain ⟨hnow, hlater, hnotNow, hnotLater⟩ := TripInput.toTrip_first _ hdetecting hasserted hepisode hcount
  have hzero : (s.elapse 0).Due (.trip i) ↔ (s.prot.inputs.get i).Completes := by
    rw [s.elapse_zero, s.due_trip_iff i h]
  have hpos {n : Nat} (hn : 1 ≤ n) :
      (s.elapse n).Due (.trip i) ↔ ((s.prot.inputs.get i).elapse n s.node.state).Completes := by
    have hinput := s.elapse_input_eq (n := n) (by omega) i
    rw [← hinput]
    exact (s.elapse n).due_trip_iff i (by rw [hinput, s.elapse_node]; exact TripInput.canTrip_elapse _ _ h)
  constructor
  · obtain h0 | h1 := Nat.eq_zero_or_pos (s.prot.inputs.get i).toTrip
    · rw [h0]
      exact hzero.mpr (hnow h0)
    · exact (hpos h1).mpr (hlater h1)
  · intro k hk
    obtain rfl | h1 := Nat.eq_zero_or_pos k
    · exact fun hdue => hnotNow hk (hzero.mp hdue)
    · exact fun hdue => hnotLater k h1 hk ((hpos h1).mp hdue)

/-! ### One tick -/

/-- One tick of an input on which detection runs (R86 to R88). -/
theorem TripInput.elapse_one (x : TripInput) (st : NodeState) (h : x.detecting st = true) :
    let y := x.elapse 1 st
    y.blank = x.blank - 1 ∧ y.blanked = decide (1 < x.blank)
      ∧ (x.asserted = false → y.count = 0 ∧ y.episode = false)
      ∧ (x.asserted = true → y.episode = x.episode)
      ∧ (x.asserted = true → x.blanked = true → y.count = 0)
      ∧ (x.asserted = true → x.blanked = false → x.episode = true → y.count = x.count)
      ∧ (x.asserted = true → x.blanked = false → x.episode = false →
          y.count = min x.entry.filter.toNat (x.count + 1)) := by
  intro y
  have hy : y = _ := x.elapse_detecting 1 st h
  rw [hy, x.countAfter_one]
  refine ⟨rfl, rfl, fun ha => ⟨?_, ?_⟩, fun ha => ?_, fun ha hb => ?_, fun ha hb he => ?_, fun ha hb he => ?_⟩
  all_goals simp [*]

theorem State.step_idle (s : State) (h : s.pending = []) : step s = .next s.idle := by
  unfold step
  rw [h]

/-- Settles O38: the list of due events read row by row, and the passing of ticks as one tick at a time. -/
theorem idleStepIsOneTick : Obligations.IdleStepIsOneTick := by
  refine ⟨State.mem_dueEvents_iff, fun s hpending hdue => ?taken, fun s hpending hnone => ?passes,
    fun s => ⟨s.elapse_zero, s.elapse_succ⟩, State.toBoundary_due, State.toTrip_due, fun s => ⟨_, rfl, ?tick⟩⟩
  case taken =>
    obtain ⟨hnone, -⟩ | ⟨e, n, he, hidle⟩ := s.idle_cases
    · exact absurd hnone hdue
    · exact ⟨e, n, he, by rw [s.step_idle hpending, hidle]⟩
  case passes =>
    obtain ⟨-, hidle⟩ | ⟨e, n, he, -⟩ := s.idle_cases
    · rw [s.step_idle hpending, hidle]
    · rw [hnone] at he
      exact absurd he List.not_mem_nil
  case tick =>
    have ht := s.elapse_pos Nat.one_ne_zero
    refine ⟨by rw [ht], fun h => ?still, fun hrunning hwrap => ⟨fun hin => ?within, fun hlast => ?last⟩, fun g => ?group,
      fun c => s.elapse_gen 1 c, fun h => ?idle, fun h => ?receiving, fun h => ?checking, fun i => ?input⟩
    case still =>
      rw [ht]
      exact s.timer.elapse_still 1 fun ⟨hr, hw⟩ => by simp [hr, hw] at h
    case within =>
      rw [ht]
      exact s.timer.elapse_within 1 ⟨hrunning, hwrap⟩ hin
    case last =>
      rw [ht]
      refine (s.timer.elapse_past 1 ⟨hrunning, hwrap⟩ (by omega)).trans ?_
      rw [show s.timer.len - 1 = s.timer.tick by omega]
    case group =>
      rw [ht]
      simp only [Two.get_map, ProtGroup.elapse, NodeState.live_iff]
      split <;> rfl
    case idle =>
      rw [ht]
      simp [LoadJob.elapse, h]
    case receiving =>
      rw [ht]
      simp [LoadJob.elapse, h]
    case checking =>
      rw [ht]
      simp [LoadJob.elapse, h]
    case input =>
      obtain ⟨hentry, hpin⟩ := s.elapse_input 1 i
      have hinput := s.elapse_input_eq Nat.one_ne_zero i
      refine ⟨hentry, hpin, fun hoff => ?_, fun hon => ?_⟩
      · rw [hinput, TripInput.elapse_not_detecting _ _ _ hoff]
        exact ⟨rfl, rfl, rfl, rfl⟩
      · rw [hinput]
        exact TripInput.elapse_one _ _ hon

end Sys2Proof.Machine

/-! ## Plans shifted by a phase and FIXED plans (R67, R69) -/

namespace Sys2Proof.Machine

/-! ### The planned state read from a list of intervals -/

/-- The first ticks of a plan's intervals rise. -/
def Rising (l : List Interval) : Prop := l.Pairwise fun a b => a.first < b.first

/-- An interval of the state of the one before it adds nothing. -/
theorem planLevel_same {a b : Interval} (hlevel : a.level = b.level) (hfirst : a.first < b.first) (t : List Interval)
    (k : Nat) : planLevel (a :: b :: t) k = planLevel (a :: t) k := by
  unfold planLevel
  by_cases hb : b.first ≤ k
  · have ha : a.first ≤ k := by omega
    simp only [List.filter_cons, ha, hb, decide_true, if_true, List.getLast?_cons_cons]
    cases t.filter fun x => decide (x.first ≤ k) with
    | nil => simp [hlevel]
    | cons c l => simp only [List.getLast?_cons_cons]
  · simp [List.filter_cons, hb]

/-- The first interval counts while none after it has begun. -/
theorem planLevel_cons (a : Interval) (t : List Interval) (k : Nat) :
    planLevel (a :: t) k =
      if ∃ x ∈ t, x.first ≤ k then planLevel t k else if a.first ≤ k then a.level else .off := by
  have hsome : (∃ x ∈ t, x.first ≤ k) ↔ t.filter (fun x => decide (x.first ≤ k)) ≠ [] := by
    simp [List.filter_eq_nil_iff]
  unfold planLevel
  rw [List.filter_cons]
  by_cases ht : t.filter (fun x => decide (x.first ≤ k)) = []
  · rw [if_neg (mt hsome.mp (not_not.mpr ht)), ht]
    by_cases ha : a.first ≤ k <;> simp [ha]
  · rw [if_pos (hsome.mpr ht)]
    obtain ⟨b, m, hm⟩ := List.exists_cons_of_ne_nil ht
    rw [hm]
    by_cases ha : a.first ≤ k <;> simp [ha]

/-- In a rising list one interval has begun when the first has. -/
theorem Rising.begun_iff {b : Interval} {t : List Interval} (h : Rising (b :: t)) (k : Nat) :
    (∃ x ∈ b :: t, x.first ≤ k) ↔ b.first ≤ k := by
  refine ⟨fun ⟨x, hx, hk⟩ => ?_, fun hk => ⟨b, List.mem_cons_self, hk⟩⟩
  obtain rfl | hx := List.mem_cons.mp hx
  · exact hk
  · exact (((List.pairwise_cons.mp h).1 x hx).le).trans hk

/-! ### Joined intervals (R63) -/

theorem joinFrom_sublist (a : Interval) (t : List Interval) : (joinFrom a t).Sublist (a :: t) := by
  induction t generalizing a with
  | nil => exact List.Sublist.refl _
  | cons b t ih =>
    rw [joinFrom]
    split
    · exact (ih a).trans ((List.sublist_cons_self b t).cons_cons a)
    · exact (ih b).cons_cons a

/-- Joining keeps the first interval. -/
theorem joinFrom_head (a : Interval) (t : List Interval) : ∃ l, joinFrom a t = a :: l := by
  induction t generalizing a with
  | nil => exact ⟨[], rfl⟩
  | cons b t ih =>
    rw [joinFrom]
    split
    · exact ih a
    · exact ⟨_, rfl⟩

/-- Neighbours of a joined plan differ. -/
theorem joinFrom_isChain (a : Interval) (t : List Interval) :
    (joinFrom a t).IsChain fun a b => a.level ≠ b.level := by
  induction t generalizing a with
  | nil => exact List.isChain_singleton a
  | cons b t ih =>
    rw [joinFrom]
    split
    · exact ih a
    · rename_i hne
      obtain ⟨l, hl⟩ := joinFrom_head b t
      have hchain := ih b
      rw [hl] at hchain ⊢
      exact List.isChain_cons_cons.mpr ⟨hne, hchain⟩

/-- Joining keeps the planned state of every tick. -/
theorem planLevel_joinFrom {a : Interval} {t : List Interval} (h : Rising (a :: t)) (k : Nat) :
    planLevel (joinFrom a t) k = planLevel (a :: t) k := by
  induction t generalizing a with
  | nil => rfl
  | cons b t ih =>
    obtain ⟨hab, hbt⟩ := List.pairwise_cons.mp h
    rw [joinFrom]
    split
    · rename_i hlevel
      rw [planLevel_same hlevel (hab b List.mem_cons_self)]
      refine ih (List.pairwise_cons.mpr ⟨fun x hx => hab x (List.mem_cons_of_mem _ hx), (List.pairwise_cons.mp hbt).2⟩)
    · obtain ⟨l, hl⟩ := joinFrom_head b t
      have hrising : Rising (b :: l) := hl ▸ List.Pairwise.sublist (joinFrom_sublist b t) hbt
      have hsame := ih hbt
      rw [hl] at hsame ⊢
      rw [planLevel_cons a (b :: l), planLevel_cons a (b :: t), hsame]
      simp only [Rising.begun_iff hrising, Rising.begun_iff hbt]

/-- An interval of a rising plan is in force at its first tick. -/
theorem planLevel_first {l : List Interval} (h : Rising l) {x : Interval} (hx : x ∈ l) :
    planLevel l x.first = x.level := by
  induction l with
  | nil => exact absurd hx List.not_mem_nil
  | cons a t ih =>
    obtain ⟨hat, ht⟩ := List.pairwise_cons.mp h
    rw [planLevel_cons]
    obtain rfl | hx := List.mem_cons.mp hx
    · rw [if_neg fun ⟨y, hy, hle⟩ => absurd (hat y hy) (by omega), if_pos (Nat.le_refl _)]
    · rw [if_pos ⟨x, hx, Nat.le_refl _⟩, ih ht hx]

/-! ### Spans that tile a stretch of ticks -/

/-- The spans follow one another without gap from tick `a` to tick `b`, none of them empty. -/
def Tiles (a b : Nat) : List Span → Prop
  | [] => a = b
  | x :: l => x.first = a ∧ a < x.stop ∧ Tiles x.stop b l

/-- A span as an interval of a plan. -/
def Span.interval (x : Span) : Interval := ⟨x.first, x.level⟩

namespace Tiles

variable {a b c : Nat} {l l' : List Span}

theorem le (h : Tiles a b l) : a ≤ b := by
  induction l generalizing a with
  | nil => exact Nat.le_of_eq h
  | cons x l ih =>
    obtain ⟨-, hlt, hrest⟩ := h
    exact hlt.le.trans (ih hrest)

theorem append (h : Tiles a b l) (h' : Tiles b c l') : Tiles a c (l ++ l') := by
  induction l generalizing a with
  | nil =>
    obtain rfl := h
    exact h'
  | cons x l ih =>
    obtain ⟨hfirst, hlt, hrest⟩ := h
    exact ⟨hfirst, hlt, ih hrest⟩

theorem bounds (h : Tiles a b l) : ∀ x ∈ l, a ≤ x.first ∧ x.first < x.stop ∧ x.stop ≤ b := by
  induction l generalizing a with
  | nil => exact fun x hx => absurd hx List.not_mem_nil
  | cons y l ih =>
    obtain ⟨hfirst, hlt, hrest⟩ := h
    have hle := hrest.le
    intro x hx
    obtain rfl | hx := List.mem_cons.mp hx
    · omega
    · have := ih hrest x hx
      omega

/-- Each tick of the stretch lies in a span. -/
theorem exists_mem (h : Tiles a b l) {k : Nat} (hk : a ≤ k) (hkb : k < b) : ∃ x ∈ l, x.first ≤ k ∧ k < x.stop := by
  induction l generalizing a with
  | nil =>
    obtain rfl := h
    omega
  | cons x l ih =>
    obtain ⟨hfirst, hlt, hrest⟩ := h
    by_cases hin : k < x.stop
    · exact ⟨x, List.mem_cons_self, by omega, hin⟩
    · obtain ⟨y, hy, hky⟩ := ih hrest (by omega)
      exact ⟨y, List.mem_cons_of_mem _ hy, hky⟩

theorem rising (h : Tiles a b l) : Rising (l.map Span.interval) := by
  induction l generalizing a with
  | nil => exact List.Pairwise.nil
  | cons x l ih =>
    obtain ⟨hfirst, hlt, hrest⟩ := h
    refine List.pairwise_cons.mpr ⟨fun y hy => ?_, ih hrest⟩
    obtain ⟨z, hz, rfl⟩ := List.mem_map.mp hy
    have := hrest.bounds z hz
    show x.first < z.first
    omega

/-- The planned state at a tick is that of the span in which it lies. -/
theorem planLevel_eq (h : Tiles a b l) {x : Span} {k : Nat} (hx : x ∈ l) (hk : x.first ≤ k) (hks : k < x.stop) :
    planLevel (l.map Span.interval) k = x.level := by
  induction l generalizing a with
  | nil => exact absurd hx List.not_mem_nil
  | cons y l ih =>
    obtain ⟨hfirst, hlt, hrest⟩ := h
    rw [List.map_cons, planLevel_cons]
    obtain rfl | hx := List.mem_cons.mp hx
    · rw [if_neg, if_pos (show x.interval.first ≤ k from hk)]
      · rfl
      · rintro ⟨z, hz, hzk⟩
        obtain ⟨w, hw, rfl⟩ := List.mem_map.mp hz
        have := hrest.bounds w hw
        have : w.first ≤ k := hzk
        omega
    · rw [if_pos ⟨x.interval, List.mem_map_of_mem hx, hk⟩, ih hrest hx]

/-- The parts carried past the end tile the beginning of the period (R67). -/
theorem wrapped {L p : Nat} (h : Tiles a b l) :
    Tiles (max (a + p) L - L) (max (b + p) L - L) (l.filterMap (Span.wrapped L p)) := by
  induction l generalizing a with
  | nil =>
    obtain rfl := h
    exact rfl
  | cons x l ih =>
    obtain ⟨rfl, hlt, hrest⟩ := h
    have htail := ih hrest
    by_cases hpast : L < x.stop + p
    · have hpart : Span.wrapped L p x = some ⟨max (x.first + p) L - L, x.stop + p - L, x.level⟩ := if_pos hpast
      rw [List.filterMap_cons_some hpart]
      refine ⟨rfl, ?_, ?_⟩
      · dsimp only
        omega
      · rwa [show max (x.stop + p) L - L = x.stop + p - L by omega] at htail
    · have hpart : Span.wrapped L p x = none := if_neg hpast
      rw [List.filterMap_cons_none hpart]
      rwa [show max (x.stop + p) L - L = max (x.first + p) L - L by omega] at htail

/-- The parts that stay tile the rest of it (R67). -/
theorem shifted {L p : Nat} (h : Tiles a b l) :
    Tiles (min (a + p) L) (min (b + p) L) (l.filterMap (Span.shifted L p)) := by
  induction l generalizing a with
  | nil =>
    obtain rfl := h
    exact rfl
  | cons x l ih =>
    obtain ⟨rfl, hlt, hrest⟩ := h
    have htail := ih hrest
    by_cases hin : x.first + p < L
    · have hpart : Span.shifted L p x = some ⟨x.first + p, min (x.stop + p) L, x.level⟩ := if_pos hin
      rw [List.filterMap_cons_some hpart]
      refine ⟨?_, ?_, htail⟩
      · dsimp only
        omega
      · dsimp only
        omega
    · have hpart : Span.shifted L p x = none := if_neg hin
      rw [List.filterMap_cons_none hpart]
      rwa [show min (x.stop + p) L = min (x.first + p) L by omega] at htail

theorem shift {L p : Nat} (h : Tiles 0 L l) (hp : p < L) : Tiles 0 L (Machine.shift L p l) := by
  have hw := h.wrapped (p := p) (L := L)
  have hs := h.shifted (p := p) (L := L)
  rw [show max (0 + p) L - L = 0 by omega, show max (L + p) L - L = p by omega] at hw
  rw [show min (0 + p) L = p by omega, show min (L + p) L = L by omega] at hs
  exact hw.append hs

end Tiles

/-- A tick of the shifted plan lies in the shifted part of the span in which the tick before the shift lies (R67). -/
theorem exists_mem_shift {L p : Nat} {l : List Span} {x : Span} (hx : x ∈ l) {k : Nat} (hk : k < L) (hp : p < L)
    (hfirst : x.first ≤ (k + L - p) % L) (hstop : (k + L - p) % L < x.stop) :
    ∃ y ∈ shift L p l, y.first ≤ k ∧ k < y.stop ∧ y.level = x.level := by
  by_cases hkp : k < p
  · rw [Nat.mod_eq_of_lt (by omega)] at hfirst hstop
    have hpart : Span.wrapped L p x = some ⟨max (x.first + p) L - L, x.stop + p - L, x.level⟩ := if_pos (by omega)
    refine ⟨_, List.mem_append_left _ (List.mem_filterMap.mpr ⟨x, hx, hpart⟩), ?_, ?_, rfl⟩ <;> dsimp only <;> omega
  · rw [show k + L - p = k - p + L by omega, Nat.add_mod_right, Nat.mod_eq_of_lt (by omega)] at hfirst hstop
    have hpart : Span.shifted L p x = some ⟨x.first + p, min (x.stop + p) L, x.level⟩ := if_pos (by omega)
    refine ⟨_, List.mem_append_right _ (List.mem_filterMap.mpr ⟨x, hx, hpart⟩), ?_, ?_, rfl⟩ <;> dsimp only <;> omega

/-! ### The plan of a setpoint-driven channel -/

/-- The spans of a pattern tile the period (R66). -/
theorem unshifted_tiles {p : Pattern} {L on : Nat} (hp : p = .leading ∨ p = .trailing ∨ p = .centered) (hon : on ≤ L) :
    Tiles 0 L (unshifted p L on) := by
  have hwindow := p.rise_add_le hon
  have hpiece (a b : Nat) (v : Level) (hab : a ≤ b) :
      Tiles a b ([Span.mk a b v].filter fun x => decide (x.first < x.stop)) := by
    by_cases h : a < b
    · simp [Tiles, h]
    · simp only [h, List.filter_cons, decide_false, List.filter_nil]
      exact Nat.le_antisymm hab (Nat.not_lt.mp h)
  rw [unshifted_eq_window hp hon]
  have hsplit : windowSpans L (p.rise L on) on = [⟨0, p.rise L on, .lo⟩] ++ ([⟨p.rise L on, p.rise L on + on, .hi⟩]
      ++ [⟨p.rise L on + on, L, .lo⟩]) := rfl
  rw [hsplit, List.filter_append, List.filter_append]
  exact (hpiece _ _ _ (Nat.zero_le _)).append ((hpiece _ _ _ (by omega)).append (hpiece _ _ _ hwindow))

/-- A plan made of spans that tile the period. -/
theorem Tiles.join_spec {L : Nat} {l : List Span} (h : Tiles 0 L l) (hL : 0 < L) :
    (join (l.map Span.interval)).head?.map Interval.first = some 0
      ∧ Rising (join (l.map Span.interval)) ∧ (join (l.map Span.interval)).IsChain (fun a b => a.level ≠ b.level)
      ∧ (∀ x ∈ join (l.map Span.interval), x.first < L)
      ∧ ∀ x ∈ l, ∀ k, x.first ≤ k → k < x.stop → planLevel (join (l.map Span.interval)) k = x.level := by
  cases l with
  | nil =>
    obtain rfl : 0 = L := h
    omega
  | cons x l =>
    have hrising : Rising (x.interval :: l.map Span.interval) := h.rising
    have hjoin : join ((x :: l).map Span.interval) = joinFrom x.interval (l.map Span.interval) := rfl
    rw [hjoin]
    refine ⟨?_, List.Pairwise.sublist (joinFrom_sublist _ _) hrising, joinFrom_isChain _ _, fun y hy => ?_,
      fun y hy k hk hks => (planLevel_joinFrom hrising k).trans (h.planLevel_eq hy hk hks)⟩
    · obtain ⟨t, ht⟩ := joinFrom_head x.interval (l.map Span.interval)
      rw [ht]
      exact congrArg some h.1
    · have hy' : y ∈ (x :: l).map Span.interval := (joinFrom_sublist _ _).subset hy
      obtain ⟨z, hz, rfl⟩ := List.mem_map.mp hy'
      have := h.bounds z hz
      exact this.2.1.trans_le this.2.2

/-- The planned state of the shifted plan is that of the plan without a phase, `phase` ticks before (R67). -/
theorem planLevel_drivenPlan_phase {p : Pattern} {L on : Nat} (phase : Nat)
    (hp : p = .leading ∨ p = .trailing ∨ p = .centered) (hL : 0 < L) (hon : on ≤ L) {k : Nat} (hk : k < L) :
    planLevel (drivenPlan p L on phase) k = planLevel (drivenPlan p L on 0) ((k + L - phase % L) % L) := by
  have htiles := unshifted_tiles hp hon
  have hphase : phase % L < L := Nat.mod_lt _ hL
  have hzero : shift L (0 % L) (unshifted p L on) = unshifted p L on := by
    rw [Nat.zero_mod]
    exact shift_zero fun x hx => by
      have := htiles.bounds x hx
      omega
  obtain ⟨x, hx, hfirst, hstop⟩ := htiles.exists_mem (Nat.zero_le _) (Nat.mod_lt (k + L - phase % L) hL)
  obtain ⟨y, hy, hyk, hyks, hlevel⟩ := exists_mem_shift hx hk hphase hfirst hstop
  obtain ⟨-, -, -, -, hshifted⟩ := (htiles.shift hphase).join_spec hL
  obtain ⟨-, -, -, -, hplain⟩ := htiles.join_spec hL
  unfold drivenPlan
  rw [hzero]
  exact (hshifted y hy k hyk hyks).trans (hlevel.trans (hplain x hx _ hfirst hstop).symm)

/-- One HI window in a cycle makes at most three intervals: a fourth would need a second one. -/
theorem length_le_three {L rise on phase : Nat} {l : List Interval} (hwindow : rise + on ≤ L) (hphase : phase < L)
    (hrising : Rising l) (hchain : l.IsChain fun a b => a.level ≠ b.level) (hin : ∀ x ∈ l, x.first < L)
    (hlevel : ∀ k, k < L → planLevel l k =
      if (k + L - phase) % L < rise then .lo else if (k + L - phase) % L < rise + on then .hi else .lo) :
    l.length ≤ 3 := by
  match l, hrising, hchain, hin, hlevel with
  | [], _, _, _, _ => simp
  | [_], _, _, _, _ => simp
  | [_, _], _, _, _, _ => simp
  | [_, _, _], _, _, _, _ => simp
  | a :: b :: c :: d :: t, hrising, hchain, hin, hlevel =>
    exfalso
    have hplace {k : Nat} (hk : k < L) : k < phase ∧ (k + L - phase) % L = k + L - phase
        ∨ phase ≤ k ∧ (k + L - phase) % L = k - phase := by
      by_cases hkp : k < phase
      · exact .inl ⟨hkp, Nat.mod_eq_of_lt (by omega)⟩
      · refine .inr ⟨by omega, ?_⟩
        rw [show k + L - phase = k - phase + L by omega, Nat.add_mod_right, Nat.mod_eq_of_lt (by omega)]
    have hwin {x y : Interval} (hx : x ∈ a :: b :: c :: d :: t) (hy : y ∈ a :: b :: c :: d :: t)
        (hne : x.level ≠ y.level) :
        ¬ (rise ≤ (x.first + L - phase) % L ∧ (x.first + L - phase) % L < rise + on
          ↔ rise ≤ (y.first + L - phase) % L ∧ (y.first + L - phase) % L < rise + on) := by
      have hstate {x : Interval} (hx : x ∈ a :: b :: c :: d :: t) : x.level =
          if rise ≤ (x.first + L - phase) % L ∧ (x.first + L - phase) % L < rise + on then .hi else .lo := by
        rw [← planLevel_first hrising hx, hlevel _ (hin x hx)]
        by_cases hlow : (x.first + L - phase) % L < rise
        · rw [if_pos hlow, if_neg (by omega)]
        · rw [if_neg hlow]
          by_cases hhigh : (x.first + L - phase) % L < rise + on
          · rw [if_pos hhigh, if_pos (by omega)]
          · rw [if_neg hhigh, if_neg (by omega)]
      intro hsame
      rw [hstate hx, hstate hy] at hne
      simp only [hsame] at hne
      exact hne rfl
    obtain ⟨hab, hbc, hcd⟩ : a.level ≠ b.level ∧ b.level ≠ c.level ∧ c.level ≠ d.level := by
      simp only [List.isChain_cons_cons] at hchain
      exact ⟨hchain.1, hchain.2.1, hchain.2.2.1⟩
    obtain ⟨hab', hbc', hcd'⟩ : a.first < b.first ∧ b.first < c.first ∧ c.first < d.first := by
      simp only [Rising, List.pairwise_cons, List.mem_cons, forall_eq_or_imp] at hrising
      exact ⟨hrising.1.1, hrising.2.1.1, hrising.2.2.1.1⟩
    have hd : d.first < L := hin d (by simp)
    have h1 := hwin (by simp) (by simp) hab
    have h2 := hwin (by simp) (by simp) hbc
    have h3 := hwin (by simp) (by simp) hcd
    have pa := hplace (k := a.first) (by omega)
    have pb := hplace (k := b.first) (by omega)
    have pc := hplace (k := c.first) (by omega)
    have pd := hplace (k := d.first) hd
    generalize (a.first + L - phase) % L = ja at *
    generalize (b.first + L - phase) % L = jb at *
    generalize (c.first + L - phase) % L = jc at *
    generalize (d.first + L - phase) % L = jd at *
    omega

/-! ### FIXED plans (R69) -/

theorem Rising.from_zero {e : Interval} {t : List Interval} {v : Level} (h : Rising (e :: t)) (hlater : e.first ≠ 0) :
    Rising (⟨0, v⟩ :: e :: t) := by
  refine List.pairwise_cons.mpr ⟨fun y hy => ?_, h⟩
  show 0 < y.first
  obtain rfl | hy := List.mem_cons.mp hy
  · omega
  · have := (List.pairwise_cons.mp h).1 y hy
    omega

theorem planLevel_of_latest {l : List Interval} {k : Nat} {e : Interval}
    (h : e ∈ (l.filter fun e => decide (e.first ≤ k)).getLast?) : planLevel l k = e.level := by
  unfold planLevel
  rw [h]
  rfl

section
variable {edges t : List Interval} {L : Nat} {e : Interval}

theorem fixedPlan_none (h : edges.filter (fun e => decide (e.first < L)) = []) : fixedPlan edges L = [⟨0, .off⟩] := by
  unfold fixedPlan
  rw [h]
  rfl

theorem fixedPlan_atZero (h : edges.filter (fun e => decide (e.first < L)) = e :: t) (hzero : e.first = 0) :
    fixedPlan edges L = joinFrom e t := by
  unfold fixedPlan
  rw [h]
  exact if_pos hzero

theorem fixedPlan_later (h : edges.filter (fun e => decide (e.first < L)) = e :: t) (hlater : e.first ≠ 0) :
    fixedPlan edges L = joinFrom ⟨0, (t.getLast?.getD e).level⟩ (e :: t) := by
  unfold fixedPlan
  rw [h]
  exact if_neg hlater

end

/-- Settles O48: a shift moves the spans that tile the period, and joining them keeps every tick's state; a FIXED plan is the
list of its edges, with the last one's state before the first. -/
theorem planShiftedAndFixed : Obligations.PlanShiftedAndFixed := by
  refine ⟨fun p L on phase hp hL hon => ?shifted, fun edges L k hedges hk => ?fixed⟩
  case shifted =>
    have hphase : phase % L < L := Nat.mod_lt _ hL
    have hlevel := fun k => planLevel_drivenPlan_phase (k := k) phase hp hL hon
    obtain ⟨hhead, hrising, hchain, hin, -⟩ := ((unshifted_tiles hp hon).shift hphase).join_spec hL
    refine ⟨length_le_three (p.rise_add_le hon) hphase hrising hchain hin fun k hk => ?_, hhead, hrising, hchain, hlevel⟩
    rw [← planLevel_drivenPlan hp hon (Nat.mod_lt _ hL)]
    exact hlevel k hk
  case fixed =>
    intro occur
    have hrising : Rising occur := List.Pairwise.filter _ hedges
    cases hoccur : occur with
    | nil => exact ⟨fun _ => fixedPlan_none hoccur, fun e he => by simp at he, fun _ e he => by simp at he⟩
    | cons e t =>
      rw [hoccur] at hrising
      refine ⟨fun h => by simp at h, fun x hx => ?latest, fun hnone x hx => ?before⟩
      case latest =>
        have hbegun : ∃ y ∈ e :: t, y.first ≤ k := by
          obtain ⟨hmem, hle⟩ := List.mem_filter.mp (List.mem_of_getLast? hx)
          exact ⟨x, hmem, of_decide_eq_true hle⟩
        by_cases hzero : e.first = 0
        · rw [fixedPlan_atZero hoccur hzero, planLevel_joinFrom hrising, planLevel_of_latest hx]
        · rw [fixedPlan_later hoccur hzero, planLevel_joinFrom (hrising.from_zero hzero), planLevel_cons,
            if_pos hbegun, planLevel_of_latest hx]
      case before =>
        have hnotBegun : ¬ ∃ y ∈ e :: t, y.first ≤ k := fun ⟨y, hy, hle⟩ =>
          List.filter_eq_nil_iff.mp hnone y hy (decide_eq_true hle)
        have hzero : e.first ≠ 0 := fun h => hnotBegun ⟨e, List.mem_cons_self, by omega⟩
        rw [List.getLast?_cons] at hx
        rw [fixedPlan_later hoccur hzero, planLevel_joinFrom (hrising.from_zero hzero), planLevel_cons,
          if_neg hnotBegun, if_pos (Nat.zero_le k), Option.some.inj hx]

end Sys2Proof.Machine

/-! ## Single symbols and untouched frames (R116 to R120, R125) -/

namespace Sys2Proof.Machine

/-! ### The commands that bring symbols -/

/-- A request command feeds the node the symbols of the request that it carries. -/
theorem exec_carried {i : Instr} {kind : Byte} {args : List Byte} {r : Request} (h : carried i = some (kind, args, r))
    (s : State) : exec i s = .next (s.feedRequest kind args r) := by
  cases i <;> simp only [carried, reduceCtorEq, Option.some.injEq, Prod.mk.injEq] at h <;>
    obtain ⟨rfl, rfl, rfl⟩ := h <;> rfl

/-- The node with what left LINK_OUT before forgotten (log 8). -/
def State.listening (s : State) : State := { s with relay := { s.relay with sent := [] } }

theorem State.feed_singleton (s : State) (x : Symbol) : s.feed [x] = s.listening.receive x := rfl

/-! ### The bypass (R118) -/

theorem State.receive_bypass (s : State) (x : Symbol) (hs : s.pins.supply = true) (hb : s.relay.bypass = true) :
    s.receive x = s.forward x := by
  unfold State.receive
  rw [if_neg (by simp [hs]), if_pos hb]

theorem State.foldl_receive_bypass (s : State) (l : List Symbol) (hs : s.pins.supply = true)
    (hb : s.relay.bypass = true) : l.foldl State.receive s = { s with relay := s.relay.forwardAll l } := by
  induction l using List.reverseRecOn with
  | nil => rfl
  | append_singleton l x ih =>
    rw [List.foldl_append, ih, Relay.forwardAll_snoc]
    exact State.receive_bypass _ x hs ((s.relay.forwardAll_spec l).2.2.2.2.trans hb)

/-- Settles O8: with the bypass active each symbol is pushed into the delay line. -/
theorem bypassCopiesEverySymbol : Obligations.BypassCopiesEverySymbol := by
  intro s l i hs hb hi
  have hexec : exec i s = .next (s.feed l) := by
    obtain rfl | rfl | rfl | ⟨rfl, rfl⟩ | ⟨kind, args, r, hcarried, rfl⟩ := hi
    · rfl
    · rfl
    · rfl
    · rfl
    · exact exec_carried hcarried s
  obtain ⟨hsymbols, hlength, hrx, hframe, hbypass⟩ := Relay.forwardAll_spec { s.relay with sent := [] } l
  refine ⟨({ s.relay with sent := [] } : Relay).forwardAll l, ?_, hsymbols, hlength, hrx, hframe, hbypass.trans hb⟩
  rw [hexec]
  exact congrArg Host.Outcome.next (State.foldl_receive_bypass s.listening l hs hb)

/-! ### A frame cut (R120) -/

/-- Settles O7: the cut ends the parser without a good judgement, and the next frame begins where a FRAME_START cut it. -/
theorem cutFrameDiscardsStagedValues : Obligations.CutFrameDiscardsStagedValues := by
  intro s x hs hb hin hx
  have hreceive : exec (.cycleFrame [x]) s = .next (s.listening.relaySymbol x) :=
    congrArg Host.Outcome.next (State.receive_ready s.listening x hs hb)
  let after : Relay := { s.relay with sent := [], rx := if x = .frameStart then .inFrame else .idle, frame := .clear }
  let cut : State := { s with relay := after.forward x, counters := s.counters.add 1 .framesBad }
  have hcut : s.listening.relaySymbol x = cut.endParser s.relay.frame.parser false := by
    have hframe : s.listening.relay.rx = .inFrame := hin
    unfold State.relaySymbol
    rw [hframe]
    obtain rfl | rfl := hx <;> cases hp : s.relay.frame.parser <;>
      simp only [State.cutFrame, State.listening, hp] <;> rfl
  obtain ⟨hsymbols, -, hrx, hclear, hbypass⟩ := after.forwardAll_spec [x]
  have hrelay : (cut.endParser s.relay.frame.parser false).relay = after.forwardAll [x] := by
    cases s.relay.frame.parser <;> rfl
  refine ⟨_, hreceive.trans (congrArg Host.Outcome.next hcut), ?eq, ?_, ?_, ?_, ?_, fun hp => ?staging, fun hp => ?address,
    fun hp => ?other⟩
  case eq => cases s.relay.frame.parser <;> rfl
  case staging =>
    rw [hp]
    exact ⟨rfl, rfl, rfl⟩
  case address =>
    rw [hp]
    exact ⟨rfl, rfl, rfl⟩
  case other =>
    obtain hp | hp := hp <;> rw [hp] <;> exact ⟨rfl, rfl⟩
  · rw [hrelay, hrx]
  · rw [hrelay, hclear]
  · rw [hrelay, hbypass]
    exact hb
  · rw [hrelay, hsymbols]
    rfl

/-! ### Frames forwarded untouched (R125, R147) -/

/-- A request to a node that is not addressed by it passes as it came (R147). -/
theorem State.outcome_none (s : State) (seq : Byte) (args : List Byte) (kind : Byte) (capacity : Nat) :
    s.outcome seq args .none kind capacity = (s, none) := rfl

/-- Settles O5: no parser, or a parser without a match, leaves the bytes and all but the counter alone. -/
theorem untouchedFramesPassUnchanged : Obligations.UntouchedFramesPassUnchanged := by
  refine ⟨fun s k body i hready hlength hi => ?_, fun s i kind args r hcarried hready hu hintact hdest h255 => ?_⟩
  · have hpass (hfixed : fixedPart (some k) ≤ body.length) (hparser : parserFor k s.node.state = .none)
        (hcycle : k = kindCycle → s.node.state.live = false) (hexec : exec i s = .next (s.feed (frameSymbols k body))) :
        ∃ relay, exec i s = .next { s with relay := relay, counters := s.counters.add 1 .framesGood }
          ∧ s.relay.Passed relay (frameSymbols k body) := by
      obtain ⟨R, hR, hfeed⟩ := s.feed_untouched k body hready hlength hfixed hparser
      refine ⟨R, ?_, hR⟩
      rw [hexec, hfeed]
      by_cases hk : k = kindCycle
      · have hstays : (s.count .framesGood).goodCycle = s.count .framesGood := if_neg (by simp [hcycle hk])
        rw [if_pos hk, hstays]
        rfl
      · rw [if_neg hk]
        rfl
    obtain ⟨rfl, h1, h2, h3⟩ | ⟨rfl, rfl, h3, hn⟩ | ⟨rfl, rfl, h3, hn⟩
        | ⟨rfl, hn, kind, args, r, hcarried, hd, rfl⟩ := hi
    · have hunknown : ¬ k = kindCycle ∧ ¬ k = kindMgmt ∧ ¬ k = kindRollcall := ⟨h1, h2, h3⟩
      exact hpass (by simp [fixedPart, hunknown]) (by simp [parserFor, hunknown]) (fun hk => absurd hk h1) rfl
    · refine hpass h3 ?_ (fun _ => ?_) rfl
      · obtain hn | hn := hn <;> rw [hn] <;> rfl
      · obtain hn | hn := hn <;> rw [hn] <;> rfl
    · refine hpass h3 ?_ (fun hk => absurd hk (by decide)) rfl
      obtain hn | hn | hn := hn <;> rw [hn] <;> rfl
    · refine hpass ?_ (by rw [hn]; rfl) (fun hk => absurd hk (by decide)) ?_
      · show 6 ≤ (requestBody r kind args).length
        simp [requestBody]
        omega
      · rw [exec_carried hcarried]
        simp only [State.feedRequest, requestSymbols, hd, damaged]
        rfl
  · obtain ⟨R, m, hR, hfeed⟩ := s.feedRequest_spec kind args r hready hu hintact
    have hmatch : matchOf r.dest s.roll.address = .none := by
      unfold matchOf
      rw [if_neg hdest, if_neg h255]
    rw [hmatch, s.outcome_none] at hR hfeed
    exact ⟨R, m, by rw [exec_carried hcarried, hfeed]; rfl, hR⟩

/-! ### An invalid symbol (R116) -/

/-- From `s` to `t` a parser has worked on a byte: the symbol errors counted, the receiver, and the position and the symbol
error mark of the frame stay. -/
structure State.Parsed (s t : State) : Prop where
  errors : t.counters.get .symbolErrors = s.counters.get .symbolErrors
  rx : t.relay.rx = s.relay.rx
  symErr : t.relay.frame.symErr = s.relay.frame.symErr
  pos : t.relay.frame.pos = s.relay.frame.pos

namespace State.Parsed

variable {s t u : State}

theorem refl (s : State) : s.Parsed s := ⟨rfl, rfl, rfl, rfl⟩

theorem trans (h : s.Parsed t) (h' : t.Parsed u) : s.Parsed u :=
  ⟨h'.errors.trans h.errors, h'.rx.trans h.rx, h'.symErr.trans h.symErr, h'.pos.trans h.pos⟩

theorem count (h : s.Parsed t) {id : CounterId} (hid : id ≠ .symbolErrors) : s.Parsed (t.count id) :=
  h.trans ⟨by rw [State.count, State.countN, Counters.get_add, if_neg (Ne.symm hid)], rfl, rfl, rfl⟩

theorem withSlots (h : s.Parsed t) (f : SlotParser → SlotParser) : s.Parsed (t.withSlots f) := h.trans ⟨rfl, rfl, rfl, rfl⟩

theorem withRoll (h : s.Parsed t) (f : RollCall → RollCall) : s.Parsed (t.withRoll f) := h.trans ⟨rfl, rfl, rfl, rfl⟩

theorem withMgmt (h : s.Parsed t) (f : MgmtFrame → MgmtFrame) : s.Parsed (t.withMgmt f) := h.trans ⟨rfl, rfl, rfl, rfl⟩

theorem markMalformed (h : s.Parsed t) : s.Parsed t.markMalformed := h.trans ⟨rfl, rfl, rfl, rfl⟩

theorem stopSlots (h : s.Parsed t) : s.Parsed t.stopSlots := h.markMalformed.withSlots _

theorem beginSlot (s : State) (id : Byte) : s.Parsed (s.beginSlot id) := by
  unfold State.beginSlot
  extract_lets s1
  have h1 : s.Parsed s1 := (refl s).withSlots _
  split
  · exact h1.count (by decide)
  · split
    · exact h1
    · exact h1.withSlots _

theorem slotLength (s : State) (len i bodyLen : Nat) : s.Parsed (s.slotLength len i bodyLen) := by
  unfold State.slotLength
  split
  · exact (refl s).stopSlots
  · split
    · exact (refl s).stopSlots
    · dsimp only
      split
      · exact ((refl s).withSlots _).count (by decide)
      · exact (refl s).withSlots _

theorem slotData (s : State) (b : Byte) : s.Parsed (s.slotData b).1 := by
  unfold State.slotData
  split
  · exact (refl s).stopSlots
  · extract_lets got last s1
    have h1 : s.Parsed s1 := (refl s).withSlots _
    split
    · exact h1
    · exact h1
    · split
      · dsimp only
        exact h1.withSlots _
      · exact h1

theorem walk (s : State) (b : Byte) (i bodyLen : Nat) : s.Parsed (s.walk b i bodyLen).1 := by
  unfold State.walk
  split
  · split_ifs <;> (dsimp only; exact (refl s).withSlots _)
  · dsimp only
    split
    · exact (beginSlot s b).stopSlots
    · exact beginSlot s b
  · exact slotLength s _ _ _
  · exact slotData s b
  all_goals exact refl s

theorem slotByte (s : State) (b : Byte) (i bodyLen : Nat) : s.Parsed (s.slotByte b i bodyLen).1 := by
  unfold State.slotByte
  dsimp only
  split
  · exact (walk s b i bodyLen).stopSlots
  · exact walk s b i bodyLen

theorem rollByte (s : State) (b : Byte) (i bodyLen : Nat) : s.Parsed (s.rollByte b i bodyLen).1 := by
  have hcapacity (n : Byte) (c : Nat) : s.Parsed (s.rollCapacity n c bodyLen) := by
    unfold State.rollCapacity
    split_ifs
    · exact (refl s).markMalformed
    · exact (refl s).withRoll _
    · exact refl s
  unfold State.rollByte
  split
  · split
    · exact refl s
    · dsimp only
      exact (refl s).withRoll _
  · split
    · exact refl s
    · split_ifs
      · dsimp only
        exact (refl s).withRoll _
      · exact hcapacity _ _
      · exact refl s

/-- In a frame with an invalid symbol no request is decided (R149). -/
theorem decideRequest (s : State) (capacity : Nat) (h : s.relay.frame.symErr = true) :
    s.decideRequest capacity = s := by
  unfold State.decideRequest
  dsimp only
  split
  · rfl
  · rw [if_pos (.inl h)]
  · rw [if_pos (.inl h)]

theorem mgmtByte (s : State) (b : Byte) (bodyLen : Nat) (h : s.relay.frame.symErr = true) :
    s.Parsed (s.mgmtByte b bodyLen).1 := by
  have hcapacity (r : Nat) : s.Parsed (s.capacityByte r bodyLen) := by
    unfold State.capacityByte
    split
    · exact (refl s).markMalformed.withMgmt _
    · rw [decideRequest _ _ (by exact h)]
      exact (refl s).withMgmt _
  unfold State.mgmtByte
  split
  case h_4 =>
    dsimp only
    split
    · exact (refl s).markMalformed.withMgmt _
    · exact (refl s).withMgmt _
  case h_7 => exact hcapacity _
  case h_9 => exact refl s
  case h_10 => exact refl s
  all_goals
    dsimp only
    exact (refl s).withMgmt _

theorem parse (s : State) (b : Byte) (i : Nat) (h : s.relay.frame.symErr = true) : s.Parsed (s.parse b i).1 := by
  unfold State.parse
  split
  · exact refl s
  · exact slotByte _ _ _ _
  · exact mgmtByte _ _ _ h
  · exact rollByte _ _ _ _

theorem choose (s : State) (k : Byte) : s.Parsed (s.choose k) := by
  unfold State.choose
  dsimp only
  split <;> exact ⟨rfl, rfl, rfl, rfl⟩

end State.Parsed

/-- A byte position of a frame with an invalid symbol (R116, R119). -/
theorem State.receiveByte_marked (s : State) (b : Byte) (h : s.relay.frame.symErr = true) :
    (s.receiveByte b).counters.get .symbolErrors = s.counters.get .symbolErrors
      ∧ (s.receiveByte b).relay.rx = s.relay.rx ∧ (s.receiveByte b).relay.frame.symErr = true
      ∧ (s.receiveByte b).relay.frame.pos = min (s.relay.frame.pos + 1) 1026 := by
  unfold State.receiveByte
  extract_lets p k s1 r
  have hparsed : s1.Parsed r.1 := by
    show s1.Parsed (if p = 0 then (s1.choose b, b)
      else if 3 ≤ p ∧ k < 3 + s1.relay.frame.bodyLen then s1.parse b (k - 3) else (s1, b)).1
    split_ifs
    · exact .choose s1 b
    · exact .parse s1 b _ h
    · exact .refl s1
  refine ⟨hparsed.errors, ?_, ?_, ?_⟩
  · exact (Relay.forward_rx _ _).trans hparsed.rx
  · exact (congrArg FrameCheck.symErr (Relay.forward_frame _ _)).trans (hparsed.symErr.trans h)
  · exact (congrArg FrameCheck.pos (Relay.forward_frame _ _)).trans hparsed.pos

/-- Settles O4: between frames the symbol is counted alone; in a frame it is a byte 00H of a marked frame. -/
theorem invalidSymbolCountedAndForwarded : Obligations.InvalidSymbolCountedAndForwarded := by
  refine ⟨fun s hs hb hrx => ?between, fun s hs hb hrx => ?within⟩
  case between =>
    let before : Relay := { s.relay with sent := [] }
    have hexec : exec .invalidSymbol s = .next { s with
        relay := before.forwardAll [.idle], counters := s.counters.add 1 .symbolErrors } := by
      refine congrArg Host.Outcome.next ((State.receive_ready s.listening .invalid hs hb).trans ?_)
      unfold State.relaySymbol
      rw [show s.listening.relay.rx = .idle from hrx]
      rfl
    obtain ⟨hsymbols, -, hrx', hframe, hbypass⟩ := before.forwardAll_spec [.idle]
    exact ⟨_, hexec, hsymbols, hrx'.trans hrx, hframe, hbypass.trans hb⟩
  case within =>
    let u : State := (s.listening.count .symbolErrors).withFrame fun f => { f with symErr := true }
    have hexec : exec .invalidSymbol s = .next (u.receiveByte 0) := by
      refine congrArg Host.Outcome.next ((State.receive_ready s.listening .invalid hs hb).trans ?_)
      unfold State.relaySymbol
      rw [show s.listening.relay.rx = .inFrame from hrx]
    obtain ⟨herrors, hrx', hmark, hpos⟩ := u.receiveByte_marked 0 rfl
    refine ⟨_, hexec, herrors.trans ?_, hrx'.trans hrx, hmark, hpos, fun hp hnone => ?_⟩
    · show (s.counters.add 1 .symbolErrors).get .symbolErrors = _
      rw [Counters.get_add, if_pos rfl, saturate]
    · have hreceive : u.receiveByte 0 = ((u.withFrame fun f => f.receive 0).withFrame fun f =>
          f.send s.relay.frame.pos 0).forward (.byte 0) := by
        unfold State.receiveByte
        extract_lets p k s1 r
        have hr : r = (s1, 0) := by
          show (if p = 0 then (s1.choose 0, (0 : Byte))
            else if 3 ≤ p ∧ k < 3 + s1.relay.frame.bodyLen then s1.parse 0 (k - 3) else (s1, 0)) = _
          rw [if_neg (show ¬ p = 0 from hp)]
          split
          · unfold State.parse
            rw [show s1.relay.frame.parser = .none from hnone]
          · rfl
        rw [hr]
        rfl
      rw [hreceive]
      exact ⟨rfl, Relay.forward_sent_line _ _⟩

end Sys2Proof.Machine

/-! ## The tests of requests and broadcasts (R150, R156, R159) -/

namespace Sys2Proof.Machine

/-! ### A request's answer, read from the decision -/

section
variable {i : Instr} {kind : Byte} {args : List Byte} {r : Request} {s t : State}

/-- A decision with a reply of status and data (R151). -/
theorem answers_of_outcome {st : Status} {flag : Bool} {data : List Byte} (hcarried : carried i = some (kind, args, r))
    (hready : s.Ready) (hu : s.node.state ≠ .unaddressed) (hintact : Intact r args)
    (hroom : 3 + data.length ≤ r.area.length)
    (hO : s.outcome r.seq args (matchOf r.dest s.roll.address) kind r.area.length
      = (t, some (.bytes (replyBytes st flag data)))) : Answers i kind args r s st flag data t := by
  obtain ⟨R, m, hR, hfeed⟩ := s.feedRequest_spec kind args r hready hu hintact
  have hlength : (replyBytes st flag data).length = 3 + data.length := by
    simp [replyBytes]
    omega
  rw [hO] at hR hfeed
  refine ⟨R, m, by rw [exec_carried hcarried, hfeed]; rfl, ?_⟩
  rwa [Reply.over, List.take_of_length_le (by omega), hlength] at hR

/-- A decision without a reply (R150). -/
theorem unanswered_of_outcome (hcarried : carried i = some (kind, args, r)) (hready : s.Ready)
    (hu : s.node.state ≠ .unaddressed) (hintact : Intact r args)
    (hO : s.outcome r.seq args (matchOf r.dest s.roll.address) kind r.area.length = (t, none)) :
    Unanswered i kind args r s t := by
  obtain ⟨R, m, hR, hfeed⟩ := s.feedRequest_spec kind args r hready hu hintact
  rw [hO] at hR hfeed
  exact ⟨R, m, by rw [exec_carried hcarried, hfeed]; rfl, hR⟩

/-- A decision counted in a tally (R159). -/
theorem tallied_of_outcome {n : Nat} (hcarried : carried i = some (kind, args, r)) (hready : s.Ready)
    (hu : s.node.state ≠ .unaddressed) (hintact : Intact r args)
    (hO : s.outcome r.seq args (matchOf r.dest s.roll.address) kind r.area.length = (t, some (.tally n))) :
    Tallied i kind args r s n t := by
  obtain ⟨R, m, hR, hfeed⟩ := s.feedRequest_spec kind args r hready hu hintact
  rw [hO] at hR hfeed
  exact ⟨R, m, by rw [exec_carried hcarried, hfeed]; rfl, hR⟩

end

theorem matchOf_own (address : Byte) : matchOf address address = .addressed := if_pos rfl

theorem matchOf_all {address : Byte} (h : address ≠ 255) : matchOf 255 address = .broadcast := by
  unfold matchOf
  rw [if_neg (Ne.symm h), if_pos rfl]

/-! ### Kinds -/

/-- The codes of section 11.8 are 01H to 14H. -/
theorem ReqKind.ofCode_eq_none {b : Byte} (h : b = 0 ∨ 0x14 < b.toNat) : ReqKind.ofCode b = none := by
  have hout : b.toNat = 0 ∨ 20 < b.toNat := h.imp_left fun hzero => by rw [hzero]; rfl
  unfold ReqKind.ofCode
  split
  case h_21 => rfl
  all_goals omega

/-- A byte that names a kind is its code. -/
theorem ReqKind.eq_code {b : Byte} {k : ReqKind} (h : ReqKind.ofCode b = some k) : b = k.code := by
  unfold ReqKind.ofCode at h
  split at h
  case h_21 => exact absurd h (by simp)
  all_goals
    rename_i hb
    obtain rfl := Option.some.inj h
    exact BitVec.eq_of_toNat_eq hb

/-! ### The decision of a kind -/

section
variable {k : ReqKind} {seq : Byte} {args : List Byte} {s : State}

/-- A form the kind does not allow is INVALID, recorded where the kind is cached (R150 test 4, R155). -/
theorem decideKind_badForm (hfresh : k.cached = true → s.mgmt.lookup seq k = none) (hform : argLengthOk k args = false) :
    decideKind k seq args s =
      (answer (if k.cached then { s with mgmt := s.mgmt.remember seq k .invalid [] } else s) .invalid, false) := by
  have hnew (t : State) : decideNew k seq args t = answer t .invalid := by
    unfold decideNew
    rw [hform]
    rfl
  unfold decideKind
  by_cases hk : k.cached = true
  · rw [if_pos hk, if_pos hk, hfresh hk]
    unfold decideCached
    rw [hnew]
    rfl
  · rw [if_neg hk, if_neg hk, hnew]

/-- A record of the sequence and kind answers (R156). -/
theorem decideKind_replayed {x : CacheRecord} (hk : k.cached = true) (hx : s.mgmt.lookup seq k = some x) :
    decideKind k seq args s = (answer (s.count .mgmtReplayed) x.status x.data, true) := by
  unfold decideKind
  rw [if_pos hk, hx]

theorem Status.tally_eq (st : Status) : st.tally = if st = .done then 0 else if st = .pending then 2 else 1 := by
  cases st <;> rfl

/-! ### Requests to the node alone -/

/-- Past test 2 the kind decides (R150). -/
theorem State.outcome_addressed_room {capacity : Nat} (hroom : 3 + largestData k args ≤ capacity) :
    s.outcome seq args .addressed k.code capacity =
      ((decideKind k seq args s).1.st,
        some (.bytes (replyBytes (decideKind k seq args s).1.status (decideKind k seq args s).2
          (decideKind k seq args s).1.data))) := by
  simp only [State.outcome, State.outcomeAddressed, ReqKind.ofCode_code]
  rw [if_neg (Nat.not_lt.mpr hroom)]

/-- Test 2 (R150). -/
theorem State.outcome_addressed_noRoom {capacity : Nat} (hroom : capacity < 3 + largestData k args) :
    s.outcome seq args .addressed k.code capacity =
      (s, if 3 ≤ capacity then some (.bytes (replyBytes .noRoom false [])) else none) := by
  simp only [State.outcome, State.outcomeAddressed, ReqKind.ofCode_code]
  rw [if_pos hroom]

/-- Test 1 (R150). -/
theorem State.outcome_addressed_unknown {kind : Byte} {capacity : Nat} (hkind : ReqKind.ofCode kind = none) :
    s.outcome seq args .addressed kind capacity =
      (s, if 3 ≤ capacity then some (.bytes (replyBytes .unknownRequest false [])) else none) := by
  simp only [State.outcome, State.outcomeAddressed, hkind]

end

/-- Settles O34: each test that applies decides with no effect but the record of an INVALID. -/
theorem requestTests : Obligations.RequestTests := by
  refine ⟨fun s r kind hkind hready hu hdest hintact => ?unknown,
    fun i k args s r hcarried hready hu hdest hintact => ?known, rfl⟩
  case unknown =>
    have hO := s.outcome_addressed_unknown (seq := r.seq) (args := r.args) (capacity := r.area.length)
      (ReqKind.ofCode_eq_none hkind)
    rw [← matchOf_own s.roll.address] at hO
    constructor
    · intro hthree
      rw [if_pos hthree] at hO
      exact answers_of_outcome rfl hready hu hintact hthree (by rw [hdest]; exact hO)
    · intro hfew
      rw [if_neg (Nat.not_le.mpr hfew)] at hO
      exact unanswered_of_outcome rfl hready hu hintact (by rw [hdest]; exact hO)
  case known =>
    have hmatch : matchOf r.dest s.roll.address = .addressed := hdest ▸ matchOf_own _
    refine ⟨fun hroom hthree => ?_, fun hfew => ?_, fun hroom hfresh hform => ?_⟩
    · refine answers_of_outcome hcarried hready hu hintact hthree ?_
      rw [hmatch, State.outcome_addressed_noRoom hroom, if_pos hthree]
    · refine unanswered_of_outcome hcarried hready hu hintact ?_
      rw [hmatch, State.outcome_addressed_noRoom (by omega), if_neg (Nat.not_le.mpr hfew)]
    · refine answers_of_outcome hcarried hready hu hintact (show 3 + 0 ≤ _ by omega) ?_
      rw [hmatch, State.outcome_addressed_room hroom, decideKind_badForm hfresh hform]
      rfl

/-- Settles O35: the record found decides. -/
theorem replayExecutesNothing : Obligations.ReplayExecutesNothing := by
  intro i k args s r x hcarried hready hu hdest hintact hroom hdata hk hx
  refine answers_of_outcome hcarried hready hu hintact hdata ?_
  rw [hdest, matchOf_own, State.outcome_addressed_room hroom, decideKind_replayed hk hx]
  rfl

/-! ### Broadcasts -/

/-- Settles O36: the tests of R159 in order; past them the kind decides and its status is tallied. -/
theorem broadcastTallies : Obligations.BroadcastTallies := by
  refine ⟨fun i k args s r hcarried htakes hk => ?decided,
    fun i kind args s r hcarried hready hu hdest hother hintact => ?tests⟩
  case decided =>
    intro a
    have hmay : k.mayBroadcast = true := by
      obtain rfl | rfl | rfl | rfl | rfl | rfl | rfl := hk <;> rfl
    rw [← Status.tally_eq]
    exact htakes.tallied (exec_carried hcarried s) hmay
  case tests =>
    have hmatch : matchOf r.dest s.roll.address = .broadcast := hdest ▸ matchOf_all hother
    refine ⟨fun hfew => ?few, fun hthree h5 h6 h8 h9 hA hB h10 => ?refused, fun k x hthree hkind hmay hk hx => ?replayed,
      fun k hthree hkind hmay hfresh hform => ?invalid⟩
    case few =>
      refine unanswered_of_outcome hcarried hready hu hintact ?_
      rw [hmatch]
      exact if_pos hfew
    case refused =>
      refine tallied_of_outcome hcarried hready hu hintact ?_
      rw [hmatch]
      refine (if_neg (Nat.not_lt.mpr hthree)).trans ?_
      cases hkind : ReqKind.ofCode kind with
      | none => rfl
      | some k =>
        have hcode := ReqKind.eq_code hkind
        have hmay : k.mayBroadcast = false := by
          cases k
          case commit => exact absurd hcode h5
          case arm => exact absurd hcode h6
          case trim => exact absurd hcode h8
          case stop => exact absurd hcode h9
          case clear => exact absurd hcode hA
          case restart => exact absurd hcode hB
          case countersClear => exact absurd hcode h10
          all_goals rfl
        dsimp only
        rw [if_neg (by simp [hmay])]
    case replayed =>
      refine tallied_of_outcome hcarried hready hu hintact ?_
      rw [hmatch, hkind, s.outcome_broadcast hmay hthree, decideKind_replayed hk hx, ← Status.tally_eq]
      rfl
    case invalid =>
      refine tallied_of_outcome hcarried hready hu hintact ?_
      rw [hmatch, hkind, s.outcome_broadcast hmay hthree, decideKind_badForm hfresh hform]
      rfl

end Sys2Proof.Machine

/-! ## Frames that end bad (R121 to R124) -/

namespace Sys2Proof.Machine

/-! ### The frame check state with its malformed mark -/

/-- The frame check state of a frame without symbol errors, marked malformed or not. -/
def FrameCheck.marked (p : Parser) (ins outs : List Byte) (mark : Bool) : FrameCheck :=
  { FrameCheck.over p ins outs with malformed := mark }

theorem FrameCheck.marked_false (p : Parser) (ins outs : List Byte) :
    FrameCheck.marked p ins outs false = .over p ins outs := rfl

/-- One byte position (R119, R121, R124). -/
theorem FrameCheck.marked_step (p : Parser) {ins outs : List Byte} (mark : Bool) (b b' : Byte)
    (hl : outs.length = ins.length) (hn : ins.length < Config.maxPositions) :
    ((FrameCheck.marked p ins outs mark).receive b).send ins.length b'
      = .marked p (ins ++ [b]) (outs ++ [b']) ((FrameCheck.marked p ins outs mark).receive b).malformed := by
  have h1 := crc_behind ins b
  have h2 := crc_behind outs b'
  have hm : min (ins.length + 1) (Config.maxPositions + 1) = (ins ++ [b]).length := by simp; omega
  simp only [FrameCheck.marked, FrameCheck.over, FrameCheck.receive, FrameCheck.send, h1, h2, hm, hl]
  match ins, outs with
  | [], [] => simp_all [Config.maxPositions]
  | [x], [x'] => simp_all [Config.maxPositions]
  | [x, y], [x', y'] => simp_all [Config.maxPositions]
  | x :: y :: z :: t, x' :: y' :: z' :: t' =>
    simp_all [Config.maxPositions]
    omega
  | [], _ :: _ => simp at hl
  | [_], [] => simp at hl
  | [_], _ :: _ :: _ => simp at hl
  | [_, _], [] => simp at hl
  | [_, _], [_] => simp at hl
  | [_, _], _ :: _ :: _ :: _ => simp at hl
  | _ :: _ :: _ :: _, [] => simp at hl
  | _ :: _ :: _ :: _, [_] => simp at hl
  | _ :: _ :: _ :: _, [_, _] => simp at hl

/-- The bytes after a frame's length field read from the bytes that have arrived (R121). -/
theorem FrameCheck.marked_bodyLen (p : Parser) {ins outs : List Byte} (mark : Bool) (b : Byte) (h3 : 3 ≤ ins.length) :
    ((FrameCheck.marked p ins outs mark).receive b).bodyLen = (wordOf (ins.getD 1 0) (ins.getD 2 0)).toNat := by
  have h2 : ins.length ≠ 2 := by omega
  simp only [FrameCheck.bodyLen, FrameCheck.receive, FrameCheck.marked, FrameCheck.over, if_neg h2, if_pos h3]
  rfl

/-! ### The relay while such a frame passes -/

/-- The relay `r0` while a frame without symbol errors passes: `ins` has arrived and left as `outs`. -/
def Relay.marked (r0 : Relay) (p : Parser) (ins outs : List Byte) (mark : Bool) : Relay :=
  { r0.during p ins outs with frame := .marked p ins outs mark }

theorem Relay.marked_false (r0 : Relay) (p : Parser) (ins outs : List Byte) :
    r0.marked p ins outs false = r0.during p ins outs := by
  obtain ⟨-, -, -, hframe, -⟩ := Relay.during_spec r0 p ins outs
  unfold Relay.marked
  rw [FrameCheck.marked_false, ← hframe]

/-- One more byte of the frame passes. -/
theorem Relay.marked_forward (r0 : Relay) (p : Parser) (ins outs : List Byte) (b b' : Byte) (mark : Bool) :
    ({ r0.during p ins outs with frame := .marked p (ins ++ [b]) (outs ++ [b']) mark } : Relay).forward (.byte b')
      = r0.marked p (ins ++ [b]) (outs ++ [b']) mark := by
  have hforward := Relay.during_forward r0 p ins outs b b'
  rw [Relay.forward_withFrame] at hforward ⊢
  unfold Relay.marked
  rw [← hforward]

/-- A byte position of such a frame, from what its parser makes of it (R117, R119, R125). -/
theorem State.receive_marked {p : Parser} {r0 : Relay} {s s' : State} {m m' : MgmtFrame} {ins outs : List Byte}
    {b b' : Byte} {mark mark' : Bool} (hs : s.pins.supply = true) (hb : r0.bypass = false)
    (hl : outs.length = ins.length) (h0 : ins ≠ []) (hn : ins.length < Config.maxPositions)
    (hparse : ∀ R : Relay, R.frame = (FrameCheck.marked p ins outs mark).receive b →
      (if 3 ≤ ins.length ∧ ins.length < 3 + R.frame.bodyLen then (s.wire R m).parse b (ins.length - 3)
        else (s.wire R m, b)) = (s'.wire { R with frame := { R.frame with malformed := mark' } } m', b')) :
    (s.wire (r0.marked p ins outs mark) m).receive (.byte b)
      = s'.wire (r0.marked p (ins ++ [b]) (outs ++ [b']) mark') m' := by
  obtain ⟨-, -, hrx, -, hby⟩ := Relay.during_spec r0 p ins outs
  let R : Relay := { r0.during p ins outs with frame := (FrameCheck.marked p ins outs mark).receive b }
  have hreceive : (s.wire (r0.marked p ins outs mark) m).receive (.byte b)
      = (s.wire (r0.marked p ins outs mark) m).receiveByte b := by
    refine (State.receive_ready (s.wire (r0.marked p ins outs mark) m) _ hs (hby.trans hb)).trans ?_
    unfold State.relaySymbol
    rw [show (s.wire (r0.marked p ins outs mark) m).relay.rx = .inFrame from hrx]
  have hpos : ¬ ins.length = 0 := fun h => h0 (List.length_eq_zero_iff.mp h)
  have hbyte := hparse R rfl
  rw [hreceive]
  unfold State.receiveByte
  extract_lets q k s1 x
  have hx : x = (s'.wire { R with frame := { R.frame with malformed := mark' } } m', b') :=
    (if_neg hpos).trans hbyte
  rw [hx]
  have hsend : ({ (FrameCheck.marked p ins outs mark).receive b with malformed := mark' }).send ins.length b'
      = FrameCheck.marked p (ins ++ [b]) (outs ++ [b']) mark' := by
    have hstep := FrameCheck.marked_step p mark b b' hl hn
    exact (congrArg (fun f : FrameCheck => { f with malformed := mark' }) hstep)
  let F : FrameCheck := { (FrameCheck.marked p ins outs mark).receive b with malformed := mark' }
  show s'.wire (({ R with frame := F.send ins.length b' } : Relay).forward (.byte b')) m' = _
  rw [hsend]
  exact congrArg (fun r => s'.wire r m') (r0.marked_forward p ins outs b b' mark')

theorem exists_append_pair {α : Type} {l : List α} (h : 2 ≤ l.length) : ∃ t x y, l = t ++ [x, y] := by
  obtain ⟨x, y, hxy⟩ := List.length_eq_two.mp (show (l.drop (l.length - 2)).length = 2 by simp; omega)
  exact ⟨l.take (l.length - 2), x, y, by rw [← hxy, List.take_append_drop]⟩

/-- FRAME_END of a frame without symbol errors, whose last two bytes were `a` and `b`: judged, counted, and sent with the
CRC of what left, or its complement (R123, R124). -/
theorem State.receive_end_marked (p : Parser) (r0 : Relay) (w : State) (m : MgmtFrame) {l outs : List Byte} (a b : Byte)
    (mark : Bool) (hs : w.pins.supply = true) (hb : r0.bypass = false) (hd : r0.line.length = Config.forwardDelay)
    (hbad : (FrameCheck.marked p (l ++ [a, b]) (outs ++ [a, b]) mark).good = false) :
    ∃ R, r0.Passed R ([Symbol.frameStart] ++ (outs ++ wordBytes (~~~ crc16 outs)).map Symbol.byte ++ [Symbol.frameEnd])
      ∧ (w.wire (r0.marked p (l ++ [a, b]) (outs ++ [a, b]) mark) m).receive .frameEnd
          = ((w.count .framesBad).endParser p false).wire R m := by
  obtain ⟨hsym, hlen, hrx, -, hby⟩ := Relay.during_spec r0 p (l ++ [a, b]) (outs ++ [a, b])
  let F := FrameCheck.marked p (l ++ [a, b]) (outs ++ [a, b]) mark
  let R1 := r0.marked p (l ++ [a, b]) (outs ++ [a, b]) mark
  have htrailer : F.trailer = ~~~ crc16 outs := by
    unfold FrameCheck.trailer
    rw [if_neg (by simp [F, hbad])]
    simp [F, FrameCheck.marked, FrameCheck.over]
  have hpos : 2 ≤ F.pos := by simp [F, FrameCheck.marked, FrameCheck.over]
  have hlen1 : R1.line.length = r0.line.length := hlen
  have hsym1 : R1.sent ++ R1.line = r0.line ++ (.frameStart :: (outs ++ [a, b]).map .byte) := hsym
  obtain ⟨t, x, y, hline⟩ := exists_append_pair (l := R1.line) (by rw [hlen1, hd]; decide)
  let R2 : Relay := { R1 with rx := .idle, frame := .clear, line := putTrailer R1.line (~~~ crc16 outs) }
  have hput : R2.line = t ++ [.byte (hiByte (~~~ crc16 outs)), .byte (loByte (~~~ crc16 outs))] := by
    show putTrailer R1.line _ = _
    rw [hline, putTrailer_snoc]
  have hreceive :
      (w.wire R1 m).receive .frameEnd = ((w.count .framesBad).endParser p false).wire (R2.forward .frameEnd) m := by
    refine (State.receive_ready (w.wire R1 m) _ hs (hby.trans hb)).trans ?_
    unfold State.relaySymbol
    rw [show (w.wire R1 m).relay.rx = .inFrame from hrx]
    have hframe : (w.wire R1 m).relay.frame = F := rfl
    have hgood : F.good = false := hbad
    unfold State.endFrame
    simp only [hframe, hgood, htrailer, if_pos hpos, Bool.false_eq_true, false_and, if_false]
    exact congrArg (State.forward · .frameEnd) (State.endParser_wire (w.count .framesBad) R2 m p false)
  refine ⟨R2.forward .frameEnd, ⟨?_, ?_, by simp [R2], by simp [R2], ?_⟩, hreceive⟩
  · have hsent : R1.sent ++ t = r0.line ++ (Symbol.frameStart :: outs.map .byte) := by
      have hall : (R1.sent ++ t) ++ [x, y]
          = (r0.line ++ (Symbol.frameStart :: outs.map .byte)) ++ [.byte a, .byte b] := by
        rw [List.append_assoc, ← hline]
        simpa using hsym1
      exact (List.append_inj' hall rfl).1
    rw [Relay.forward_sent_line, hput, ← List.append_assoc]
    show R1.sent ++ t ++ _ ++ _ = _
    rw [hsent]
    simp [wordBytes]
  · rw [Relay.forward_line_length, hput, ← hlen1, hline]
    simp
  · exact (Relay.forward_bypass _ _).trans hby

/-! ### A bad frame of an unknown kind (R121 to R124) -/

/-- Bytes of a frame that no parser works on. -/
theorem State.foldl_unparsed {s : State} {r0 : Relay} {m : MgmtFrame} (hs : s.pins.supply = true)
    (hb : r0.bypass = false) (rest : List Byte) {ins : List Byte} (h0 : ins ≠ [])
    (hn : ins.length + rest.length ≤ Config.maxPositions) (mark : Bool) :
    ∃ mark', (rest.map Symbol.byte).foldl State.receive (s.wire (r0.marked .none ins ins mark) m)
      = s.wire (r0.marked .none (ins ++ rest) (ins ++ rest) mark') m := by
  induction rest generalizing ins mark with
  | nil => exact ⟨mark, by simp⟩
  | cons b rest ih =>
    simp only [List.length_cons] at hn
    have hbyte := State.receive_marked (p := .none) (s := s) (s' := s) (m := m) (m' := m) (b := b) (b' := b)
      (mark := mark) (mark' := ((FrameCheck.marked .none ins ins mark).receive b).malformed) hs hb rfl h0 (by omega)
      (fun R hR => by
        have hparse : (s.wire R m).parse b (ins.length - 3) = (s.wire R m, b) := by
          unfold State.parse
          rw [show (s.wire R m).relay.frame.parser = .none by exact congrArg FrameCheck.parser hR]
        rw [hparse, ite_self, ← hR])
    obtain ⟨mark', hrest⟩ := ih (ins := ins ++ [b]) (by simp) (by simp; omega) _
    refine ⟨mark', ?_⟩
    rw [List.map_cons, List.foldl_cons, hbyte, hrest, List.append_assoc, List.singleton_append]

/-- A frame is bad when its extent or its trailer does not agree with its bytes (R121 to R123). -/
theorem FrameCheck.marked_bad (p : Parser) {l outs : List Byte} {a b : Byte} {mark : Bool}
    (h : ¬ (3 ≤ l.length ∧ l.length = 3 + (wordAt l 1).toNat ∧ wordOf a b = crc16 l)) :
    (FrameCheck.marked p (l ++ [a, b]) outs mark).good = false := by
  rw [← Bool.not_eq_true]
  intro hgood
  apply h
  simp only [FrameCheck.good, FrameCheck.trailerOk, FrameCheck.malformedAtEnd, Bool.and_eq_true, decide_eq_true_eq,
    Bool.not_eq_true', Bool.or_eq_false_iff, decide_eq_false_iff_not, not_not] at hgood
  obtain ⟨⟨⟨hfive, htrailer⟩, -⟩, ⟨⟨-, -⟩, hextent⟩, -⟩ := hgood
  have hpos : (FrameCheck.marked p (l ++ [a, b]) outs mark).pos = l.length + 2 := by
    simp [FrameCheck.marked, FrameCheck.over]
  rw [hpos] at hfive hextent
  have h3 : 3 ≤ l.length := by omega
  have hbody : (FrameCheck.marked p (l ++ [a, b]) outs mark).bodyLen = (wordAt l 1).toNat := by
    match l, h3 with
    | x :: y :: z :: t, _ => simp [FrameCheck.bodyLen, FrameCheck.marked, FrameCheck.over, wordAt, byteAt]
  refine ⟨h3, by omega, ?_⟩
  simpa [FrameCheck.marked, FrameCheck.over] using htrailer

/-- Settles O6: no parser works on the frame, and its end is judged bad. -/
theorem badFrameIsPoisoned : Obligations.BadFrameIsPoisoned := by
  intro s l a b hready hn h1 h2 h3 hbad
  obtain ⟨k, rest, hbytes⟩ : ∃ k rest, l ++ [a, b] = k :: rest := List.exists_cons_of_ne_nil (by simp)
  rw [hbytes] at h1 h2 h3
  simp only [List.head?_cons, ne_eq, Option.some.injEq] at h1 h2 h3
  have hparser : parserFor k s.node.state = .none := by
    have hunknown : ¬ k = kindCycle ∧ ¬ k = kindMgmt ∧ ¬ k = kindRollcall := ⟨h1, h2, h3⟩
    simp [parserFor, hunknown]
  have hstart := s.receive_start k hready
  rw [hparser] at hstart
  have hlength : (l ++ [a, b]).length = l.length + 2 := by simp
  obtain ⟨mark, hrest⟩ := State.foldl_unparsed (s := s) (r0 := s.relay) (m := s.mgmt.frame) hready.supply
    hready.released rest (ins := [k]) (by simp)
    (by
      rw [hbytes, List.length_cons] at hlength
      show 1 + rest.length ≤ 1025
      omega) false
  obtain ⟨R, hR, hend⟩ := State.receive_end_marked .none s.relay s s.mgmt.frame a b mark hready.supply hready.released
    hready.delay (outs := l) (FrameCheck.marked_bad .none hbad)
  refine ⟨R, ?_, hR⟩
  have hsymbols : [Symbol.frameStart] ++ (l ++ [a, b]).map Symbol.byte ++ [.frameEnd]
      = [.frameStart, .byte k] ++ rest.map Symbol.byte ++ [.frameEnd] := by
    rw [hbytes]
    rfl
  refine congrArg Host.Outcome.next ?_
  rw [State.feed, hsymbols, List.foldl_append, List.foldl_append, hstart]
  rw [Relay.marked_false] at hrest
  have hrest' : List.foldl State.receive { s.begun .none with relay := s.relay.during .none [k] [k] }
      (rest.map Symbol.byte) = s.wire (s.relay.marked .none (l ++ [a, b]) (l ++ [a, b]) mark) s.mgmt.frame := by
    rw [hbytes]
    exact hrest
  rw [hrest']
  exact hend

end Sys2Proof.Machine

/-! ## ROLLCALL frames (R128 to R131) -/

namespace Sys2Proof.Machine

/-! ### Bodies whose state does not change, and frames with a wrong trailer -/

/-- Body bytes from byte `k` on that leave the state: byte `i` leaves as `f i` says. -/
theorem Run.each {p : Parser} {r0 : Relay} {s : State} {m : MgmtFrame} {n : Nat} (k : Nat) (f : Nat → Byte → Byte)
    (hs : s.pins.supply = true) (hb : r0.bypass = false) (hm : n ≤ Config.maxBody)
    (hstep : ∀ (R : Relay) (b : Byte) (i : Nat), R.frame.parser = p → k ≤ i →
      (s.wire R m).parse b i = (s.wire R m, f i b)) (l : List Byte) {ins outs : List Byte}
    (hl : outs.length = ins.length) (hk : 3 + k ≤ ins.length) (hi : ins.length + l.length ≤ 3 + n)
    (hn : (wordOf (ins.getD 1 0) (ins.getD 2 0)).toNat = n) :
    Run p r0 s m ins outs l (l.mapIdx fun j b => f (ins.length - 3 + j) b) s m := by
  induction l generalizing ins outs with
  | nil => exact Run.nil _ _ _ _ _ _
  | cons b l ih =>
    simp only [List.length_cons] at hi
    have hbyte : Run p r0 s m ins outs [b] [f (ins.length - 3) b] s m :=
      Run.byte hs hb hl (by omega) (by omega) hn hm fun R _ _ hp _ => hstep R b _ hp (by omega)
    have hrest := ih (ins := ins ++ [b]) (outs := outs ++ [f (ins.length - 3) b]) (by simp [hl]) (by simp; omega)
      (by simp; omega) (by rw [head_stays _ _ (by omega), hn])
    have hindex (j : Nat) : (ins ++ [b]).length - 3 + j = ins.length - 3 + (j + 1) := by
      simp
      omega
    simp only [hindex] at hrest
    rw [List.mapIdx_cons]
    exact Run.trans hbyte hrest

/-- A frame whose trailer does not agree, from what its parser's walk over its body leaves (R121 to R124). -/
theorem State.feed_bad (s : State) (k : Byte) (body outs : List Byte) (a b : Byte) (w : State) (m : MgmtFrame)
    (mark : Bool) (h : s.Ready) (hn : body.length ≤ Config.maxBody) (hs : w.pins.supply = true)
    (hl : outs.length = body.length) (hcrc : wordOf a b ≠ crc16 (frameBytes k body))
    (hrun : (body.map Symbol.byte).foldl State.receive
        ((s.begun (parserFor k s.node.state)).wire
          (s.relay.during (parserFor k s.node.state) (frameHead k body) (frameHead k body))
          (s.begun (parserFor k s.node.state)).mgmt.frame)
      = w.wire (s.relay.marked (parserFor k s.node.state) (frameHead k body ++ body) (frameHead k body ++ outs) mark) m) :
    ∃ R, s.relay.Passed R ([Symbol.frameStart]
        ++ (frameBytes k outs ++ wordBytes (~~~ crc16 (frameBytes k outs))).map Symbol.byte ++ [Symbol.frameEnd])
      ∧ s.feed ([Symbol.frameStart] ++ (frameBytes k body ++ [a, b]).map Symbol.byte ++ [Symbol.frameEnd])
        = ((w.count .framesBad).endParser (parserFor k s.node.state) false).wire R m := by
  generalize hp : parserFor k s.node.state = p at *
  have hhead : (frameHead k body).length = 3 := rfl
  have hmax : Config.maxBody = 1020 := rfl
  have hpos : Config.maxPositions = 1025 := rfl
  have houts : frameBytes k outs = frameHead k body ++ outs := by
    rw [frameBytes_head, frameHead, frameHead, hl]
  have htrailer {ins outs' : List Byte} (x : Byte) (mark : Bool) (hins : ∃ t, ins = frameHead k body ++ body ++ t)
      (hlength : outs'.length = ins.length) (hlt : ins.length < 1025) :
      ∃ mark', (w.wire (s.relay.marked p ins outs' mark) m).receive (.byte x)
        = w.wire (s.relay.marked p (ins ++ [x]) (outs' ++ [x]) mark') m := by
    obtain ⟨t, rfl⟩ := hins
    refine ⟨((FrameCheck.marked p (frameHead k body ++ body ++ t) outs' mark).receive x).malformed,
      State.receive_marked hs h.released hlength
      (by simp [frameHead]) hlt fun R hR => ?_⟩
    have hbodyLen : R.frame.bodyLen = body.length := by
      rw [hR, FrameCheck.marked_bodyLen _ _ _ (by simp [hhead]), List.append_assoc, head_stays _ _ (by omega),
        frameHead_length k body hn]
    rw [if_neg (by rw [hbodyLen]; simp [hhead]), ← hR]
  obtain ⟨mark1, h1⟩ := htrailer (ins := frameHead k body ++ body) (outs' := frameHead k body ++ outs) a mark
    ⟨[], by simp⟩
    (by simp [hl]) (by simp [hhead]; omega)
  obtain ⟨mark2, h2⟩ := htrailer (ins := frameHead k body ++ body ++ [a]) (outs' := frameHead k body ++ outs ++ [a]) b mark1
    ⟨[a], rfl⟩ (by simp [hl]) (by simp [hhead]; omega)
  obtain ⟨R, hR, hend⟩ := State.receive_end_marked p s.relay w m a b mark2 hs h.released h.delay
    (l := frameBytes k body) (outs := frameBytes k outs) (FrameCheck.marked_bad p fun hgood => hcrc hgood.2.2)
  refine ⟨R, hR, ?_⟩
  have hsplit : [Symbol.frameStart] ++ (frameBytes k body ++ [a, b]).map Symbol.byte ++ [Symbol.frameEnd]
      = (Symbol.frameStart :: (frameHead k body).map Symbol.byte) ++ body.map Symbol.byte ++ [.byte a] ++ [.byte b]
        ++ [.frameEnd] := by
    simp [frameBytes_head]
  have hhead' := s.receive_head k body h hn
  rw [hp] at hhead'
  have hlast : w.wire (s.relay.marked p (frameHead k body ++ body ++ [a] ++ [b]) (frameHead k body ++ outs ++ [a] ++ [b])
      mark2) m = w.wire (s.relay.marked p (frameBytes k body ++ [a, b]) (frameBytes k outs ++ [a, b]) mark2) m := by
    rw [houts, frameBytes_head]
    simp
  rw [State.feed, hsplit]
  simp only [List.foldl_append]
  rw [hhead', hrun]
  simp only [List.foldl]
  rw [h1, h2, hlast, hend]

/-! ### The walk over a ROLLCALL body -/

/-- The handler at rest between frames (log 21). -/
def RollCall.rest (r : RollCall) : RollCall := { r with staged := none, next := none, base := 0, entry := none }

theorem State.begun_roll (s : State) : s.begun .roll = { s with roll := s.roll.rest } := rfl

/-- Without a next address the handler leaves every later byte alone (R129). -/
theorem State.rollByte_ended {s : State} (h : s.roll.next = none) (b : Byte) {i : Nat} (hi : i ≠ 0) (n : Nat) :
    s.rollByte b i n = (s, b) := by
  unfold State.rollByte
  rw [if_neg hi, h]

/-- A next address of 0 or 255 ends the handler's part (R129). -/
theorem State.rollByte_refused (s : State) {b : Byte} (hb : b = 0 ∨ b = 255) (n : Nat) : s.rollByte b 0 n = (s, b) := by
  unfold State.rollByte
  rw [if_pos rfl, if_pos hb]

/-- The parser handed a body byte in a frame of the handler. -/
theorem State.parse_roll {s : State} {R : Relay} {m : MgmtFrame} (hR : R.frame.parser = .roll) (b : Byte) (i : Nat) :
    (s.wire R m).parse b i = (s.wire R m).rollByte b i R.frame.bodyLen := by
  unfold State.parse
  rw [show (s.wire R m).relay.frame.parser = .roll from hR]
  rfl

theorem parserFor_rollcall {n : NodeState} (h : n = .unaddressed ∨ n = .config) :
    parserFor kindRollcall n = .roll := by
  obtain rfl | rfl := h <;> rfl

/-- A roll-call frame refused by its next address passes as it came (R129, R130). -/
theorem State.feed_rollcall_refused (s : State) (n : Byte) (rest : List Byte) (h : s.Ready)
    (hn : s.node.state = .unaddressed ∨ s.node.state = .config) (hb : n = 0 ∨ n = 255) (h2 : 2 ≤ rest.length)
    (hlength : 1 + rest.length ≤ 1020) :
    ∃ R, s.relay.Passed R (frameSymbols kindRollcall (n :: rest))
      ∧ s.feed (frameSymbols kindRollcall (n :: rest))
        = { s with relay := R, roll := s.roll.rest, counters := s.counters.add 1 .framesGood } := by
  have hmax : (n :: rest).length ≤ Config.maxBody := by
    show rest.length + 1 ≤ 1020
    omega
  have hwhole := frameHead_length kindRollcall (n :: rest) hmax
  have hbegun := s.begun_roll
  let u : State := { s with roll := s.roll.rest }
  have hfirst : Run .roll s.relay u s.mgmt.frame (frameHead kindRollcall (n :: rest)) (frameHead kindRollcall (n :: rest))
      [n] [n] u s.mgmt.frame :=
    Run.byte (n := (n :: rest).length) h.supply h.released rfl (by simp [frameHead, wordBytes])
      (by simp [frameHead, wordBytes]) hwhole hmax fun R _ _ hR _ => by
        rw [State.parse_roll hR]
        exact State.rollByte_refused _ hb _
  have hrest := Run.each (p := .roll) (r0 := s.relay) (s := u) (m := s.mgmt.frame) 1 (fun _ b => b) h.supply h.released hmax
    (fun R b i hR hi => by
      rw [State.parse_roll hR]
      exact State.rollByte_ended rfl b (by omega) _) rest
    (ins := frameHead kindRollcall (n :: rest) ++ [n]) (outs := frameHead kindRollcall (n :: rest) ++ [n]) rfl
    (by simp [frameHead, wordBytes]) (by simp [frameHead, wordBytes]; omega)
    (by rw [head_stays _ _ (by simp [frameHead, wordBytes]), hwhole])
  rw [show rest.mapIdx (fun _ b => b) = rest from List.ext_getElem (by simp) (by simp)] at hrest
  obtain ⟨R, hR, hfeed⟩ := s.feed_frame kindRollcall (n :: rest) (n :: rest) u s.mgmt.frame h hmax
    (by show 3 ≤ rest.length + 1; omega) h.supply rfl
    (by
      rw [parserFor_rollcall hn, hbegun]
      exact Run.trans hfirst hrest)
  refine ⟨R, hR, ?_⟩
  rw [hfeed, parserFor_rollcall hn, if_neg (by decide)]
  rfl

/-- Bytes `w` put in the place of those from `o` on. -/
theorem mapIdx_window (l w : List Byte) (o : Nat) (h : o + w.length ≤ l.length) :
    (l.mapIdx fun j b => if o ≤ j ∧ j < o + w.length then w.getD (j - o) b else b)
      = l.take o ++ w ++ l.drop (o + w.length) := by
  apply List.ext_getElem
  · simp
    omega
  · intro j h1 h2
    rw [List.getElem_mapIdx]
    by_cases hlow : j < o
    · rw [if_neg (by omega), List.getElem_append_left (by simp; omega), List.getElem_append_left (by simp; omega),
        List.getElem_take]
    · by_cases hin : j < o + w.length
      · have hplace : (l.take o).length = o := by simp; omega
        rw [if_pos ⟨by omega, hin⟩, List.getElem_append_left (by simp; omega), List.getElem_append_right (by omega),
          List.getD_eq_getElem _ _ (by omega)]
        simp only [hplace]
      · have hplace : (l.take o ++ w).length = o + w.length := by simp; omega
        rw [if_neg (by omega), List.getElem_append_right (by omega), List.getElem_drop]
        simp only [hplace]
        congr 1
        omega

theorem State.entryByte_none {s : State} (h : s.roll.entry = none) (b : Byte) (i : Nat) : s.entryByte b i = b := by
  unfold State.entryByte
  rw [h]

/-- The bytes after the capacity, with the identity entry in its place (R129). -/
theorem State.entryBytes_some {s : State} {k : Nat} (h : s.roll.entry = some k) (l : List Byte)
    (hl : 8 * k + 8 ≤ l.length) :
    (l.mapIdx fun j b => s.entryByte b (3 + j))
      = l.take (8 * k) ++ identityEntry s.node.state ++ l.drop (8 * k + 8) := by
  refine Eq.trans ?_ (mapIdx_window l (identityEntry s.node.state) (8 * k) hl)
  congr 1
  funext j b
  have hiff : (3 + 8 * k ≤ 3 + j ∧ 3 + j < 11 + 8 * k)
      ↔ (8 * k ≤ j ∧ j < 8 * k + (identityEntry s.node.state).length) := by
    show _ ↔ _ ∧ _ < 8 * k + 8
    omega
  unfold State.entryByte
  rw [h]
  simp only [hiff, Nat.add_sub_add_left]

/-- The handler after a next address `n`, a base and a capacity within the limits: the entry that it writes (R129). -/
def RollCall.joining (r : RollCall) (n base cap : Byte) : RollCall :=
  { address := r.address, staged := some n, next := some n, base := base
    entry := if base.toNat ≤ n.toNat ∧ n.toNat - base.toNat < cap.toNat then some (n.toNat - base.toNat) else none }

/-- The capacity byte within the limits (R129). -/
theorem State.rollCapacity_fits {s : State} {n base cap : Byte} {bodyLen : Nat} {r : RollCall}
    (hroll : s.roll = { r with staged := some n, next := some n, base := base, entry := none })
    (hcap : cap.toNat ≤ 32) (hlen : 3 + 8 * cap.toNat ≤ bodyLen) :
    s.rollCapacity n cap.toNat bodyLen = { s with roll := r.joining n base cap } := by
  unfold State.rollCapacity RollCall.joining
  rw [if_neg (by omega), show s.roll.base = base by rw [hroll]]
  by_cases h : base.toNat ≤ n.toNat ∧ n.toNat - base.toNat < cap.toNat
  · rw [if_pos h, if_pos h, State.withRoll, hroll]
  · rw [if_neg h, if_neg h, ← hroll]

/-- What leaves of an entry area for a node that takes address `n` (R129). -/
def joinedArea (st : NodeState) (n base cap : Byte) (area : List Byte) : List Byte :=
  if base.toNat ≤ n.toNat ∧ n.toNat - base.toNat < cap.toNat then
    area.take (8 * (n.toNat - base.toNat)) ++ identityEntry st ++ area.drop (8 * (n.toNat - base.toNat) + 8)
  else area

theorem joinedArea_length (st : NodeState) (n base cap : Byte) {area : List Byte} (h : area.length = 8 * cap.toNat) :
    (joinedArea st n base cap area).length = area.length := by
  unfold joinedArea
  split
  · simp [identityEntry]
    omega
  · rfl

/-- The bytes after the capacity as they leave (R129). -/
theorem State.entryBytes_joining {s : State} {r : RollCall} {n base cap : Byte} (hroll : s.roll = r.joining n base cap)
    {area : List Byte} (h : area.length = 8 * cap.toNat) (padding : List Byte) :
    ((area ++ padding).mapIdx fun j b => s.entryByte b (3 + j))
      = joinedArea s.node.state n base cap area ++ padding := by
  unfold joinedArea
  by_cases hfits : base.toNat ≤ n.toNat ∧ n.toNat - base.toNat < cap.toNat
  · have hentry : s.roll.entry = some (n.toNat - base.toNat) := by
      rw [hroll]
      exact if_pos hfits
    have harea : 8 * (n.toNat - base.toNat) + 8 ≤ area.length := by omega
    rw [if_pos hfits, State.entryBytes_some hentry _ (by simp; omega), List.take_append_of_le_length (by omega),
      List.drop_append_of_le_length (by omega), List.append_assoc, List.append_assoc, List.append_assoc]
  · have hentry : s.roll.entry = none := by
      rw [hroll]
      exact if_neg hfits
    rw [if_neg hfits]
    simp only [State.entryByte_none hentry]
    exact List.ext_getElem (by simp) (by simp)

/-- The body of a roll call that the handler joins (R129). -/
theorem Run.joining (s : State) (m : MgmtFrame) {n base cap : Byte} {area padding hd : List Byte} (hs : s.pins.supply = true)
    (hb : s.relay.bypass = false) (hn0 : n ≠ 0) (hn255 : n ≠ 255) (hcap : cap.toNat ≤ 32)
    (harea : area.length = 8 * cap.toNat) (hlength : 3 + area.length + padding.length ≤ 1020) (h3 : hd.length = 3)
    (hw : (wordOf (hd.getD 1 0) (hd.getD 2 0)).toNat = 3 + area.length + padding.length) :
    Run .roll s.relay { s with roll := s.roll.rest } m hd hd ([n, base, cap] ++ area ++ padding)
      ([n + 1, base, cap] ++ joinedArea s.node.state n base cap area ++ padding)
      { s with roll := s.roll.joining n base cap } m := by
  let r1 : RollCall := { s.roll with staged := some n, next := some n, base := 0, entry := none }
  let r2 : RollCall := { s.roll with staged := some n, next := some n, base := base, entry := none }
  have hword (l : List Byte) : (wordOf ((hd ++ l).getD 1 0) ((hd ++ l).getD 2 0)).toNat = 3 + area.length + padding.length := by
    rw [head_stays _ _ (by omega), hw]
  have run1 : Run .roll s.relay { s with roll := s.roll.rest } m hd hd [n] [n + 1] { s with roll := r1 } m :=
    Run.byte hs hb rfl (by omega) (by omega) hw hlength fun R _ _ hR _ => by
      rw [State.parse_roll hR]
      unfold State.rollByte
      rw [show hd.length - 3 = 0 by omega, if_pos rfl, if_neg fun h => h.elim hn0 hn255]
      rfl
  have run2 : Run .roll s.relay { s with roll := r1 } m (hd ++ [n]) (hd ++ [n + 1]) [base] [base] { s with roll := r2 } m :=
    Run.byte hs hb (by simp) (by simp; omega) (by simp; omega) (hword _) hlength fun R _ _ hR _ => by
      rw [State.parse_roll hR]
      unfold State.rollByte
      rw [show (hd ++ [n]).length - 3 = 1 by simp; omega]
      rfl
  have run3 : Run .roll s.relay { s with roll := r2 } m (hd ++ [n] ++ [base]) (hd ++ [n + 1] ++ [base]) [cap] [cap]
      { s with roll := s.roll.joining n base cap } m :=
    Run.byte hs hb (by simp) (by simp; omega) (by simp; omega) (by rw [List.append_assoc, hword]) hlength
      fun R _ _ hR hlen => by
        rw [State.parse_roll hR, hlen]
        unfold State.rollByte
        rw [show (hd ++ [n] ++ [base]).length - 3 = 2 by simp; omega]
        exact congrArg (·, cap) (State.rollCapacity_fits (r := s.roll) rfl hcap (by omega))
  let u : State := { s with roll := s.roll.joining n base cap }
  have run4 := Run.each (p := .roll) (r0 := s.relay) (s := u) (m := m) 3 (fun i b => u.entryByte b i) hs hb hlength
    (fun R b i hR hi => by
      rw [State.parse_roll hR]
      unfold State.rollByte
      rw [if_neg (by omega)]
      show (if i = 1 then _ else if i = 2 then _ else _) = _
      rw [if_neg (by omega), if_neg (by omega)]
      rfl) (area ++ padding) (ins := hd ++ [n] ++ [base] ++ [cap]) (outs := hd ++ [n + 1] ++ [base] ++ [cap]) (by simp)
    (by simp; omega) (by simp; omega) (by rw [List.append_assoc, List.append_assoc, hword])
  have hplace (j : Nat) : (hd ++ [n] ++ [base] ++ [cap]).length - 3 + j = 3 + j := by
    simp
    omega
  simp only [hplace] at run4
  rw [State.entryBytes_joining (s := u) rfl harea] at run4
  have run := Run.trans run1 (Run.trans run2 (Run.trans run3 run4))
  simpa using run

/-- A good end in UNADDRESSED or CONFIG adopts the staged address (R130). -/
theorem State.endRoll_adopts {w : State} {n : Byte} (hstate : w.node.state = .unaddressed ∨ w.node.state = .config)
    (hn : w.roll.staged = some n) :
    w.endRoll true =
      { w with
        roll := { address := n, staged := none, next := none, base := 0, entry := none }
        node := { w.node with state := .config } } := by
  have hkept (h : w.node.state = .config) : w.node = { w.node with state := .config } := by rw [← h]
  obtain h | h := hstate <;> simp only [State.endRoll, hn, State.adopt, h, State.withRoll]
  rw [← hkept h]

/-- Settles O9: the handler's walk stages the address and writes the entry; the good end adopts it. -/
theorem rollcallAddressesTheNode : Obligations.RollcallAddressesTheNode := by
  intro s n base cap area padding hready hstate hn0 hn255 hcap harea hlength
  let body := [n, base, cap] ++ area ++ padding
  let left := [n + 1, base, cap] ++ joinedArea s.node.state n base cap area ++ padding
  have hsize : body.length = 3 + area.length + padding.length := by
    simp [body]
    omega
  have hleft : left.length = body.length := by
    simp [left, body, joinedArea_length _ _ _ _ harea]
  have hmax : body.length ≤ Config.maxBody := hsize ▸ hlength
  have hrun := Run.joining s s.mgmt.frame (base := base) (hd := frameHead kindRollcall body) (padding := padding) hready.supply
    hready.released hn0 hn255 hcap harea hlength rfl ((frameHead_length kindRollcall body hmax).trans hsize)
  obtain ⟨R, hR, hfeed⟩ := s.feed_frame kindRollcall body left { s with roll := s.roll.joining n base cap } s.mgmt.frame
    hready hmax (by show 3 ≤ body.length; omega) hready.supply hleft
    (by
      rw [parserFor_rollcall hstate]
      exact hrun)
  refine ⟨R, ?_, hR⟩
  refine congrArg Host.Outcome.next (hfeed.trans ?_)
  rw [parserFor_rollcall hstate, if_neg (by decide)]
  have hadopts := State.endRoll_adopts (w := { s with roll := s.roll.joining n base cap }.count .framesGood) (n := n)
    hstate rfl
  show (State.endRoll _ true).wire R s.mgmt.frame = _
  rw [hadopts]
  rfl

/-! ### ROLLCALL frames that leave the address as it is -/

/-- The capacity byte changes the handler's frame values and the malformed mark only (R129). -/
theorem State.rollCapacity_keeps (s : State) (ρ : RollCall) (m : MgmtFrame) (n : Byte) (c bodyLen : Nat) (f : FrameCheck) :
    ∃ ρ' mark, ρ'.address = ρ.address ∧ ∀ R : Relay, R.frame = f →
      ({ s with roll := ρ }.wire R m).rollCapacity n c bodyLen
        = { s with roll := ρ' }.wire { R with frame := { R.frame with malformed := mark } } m := by
  unfold State.rollCapacity
  by_cases hover : 32 < c ∨ bodyLen < 3 + 8 * c
  · exact ⟨ρ, true, rfl, fun R _ => by rw [if_pos hover]; rfl⟩
  · by_cases hfits : ρ.base.toNat ≤ n.toNat ∧ n.toNat - ρ.base.toNat < c
    · exact ⟨{ ρ with entry := some (n.toNat - ρ.base.toNat) }, f.malformed, rfl, fun R hR => by
        rw [if_neg hover, ← hR]; exact if_pos hfits⟩
    · exact ⟨ρ, f.malformed, rfl, fun R hR => by rw [if_neg hover, ← hR]; exact if_neg hfits⟩

/-- A body byte handed to the handler changes its frame values and the malformed mark only (R129). -/
theorem State.rollByte_keeps (s : State) (ρ : RollCall) (m : MgmtFrame) (b : Byte) (i bodyLen : Nat) (f : FrameCheck) :
    ∃ ρ' b' mark, ρ'.address = ρ.address ∧ ∀ R : Relay, R.frame = f →
      ({ s with roll := ρ }.wire R m).rollByte b i bodyLen
        = ({ s with roll := ρ' }.wire { R with frame := { R.frame with malformed := mark } } m, b') := by
  unfold State.rollByte
  by_cases h0 : i = 0
  · by_cases hb : b = 0 ∨ b = 255
    · exact ⟨ρ, b, f.malformed, rfl, fun R hR => by rw [if_pos h0, if_pos hb, ← hR]⟩
    · exact ⟨{ ρ with next := some b, staged := some b }, b + 1, f.malformed, rfl, fun R hR => by
        rw [if_pos h0, if_neg hb, ← hR]; rfl⟩
  · cases hnext : ρ.next with
    | none =>
      have hnone (R : Relay) : ({ s with roll := ρ }.wire R m).roll.next = none := hnext
      exact ⟨ρ, b, f.malformed, rfl, fun R hR => by
        rw [if_neg h0, ← hR, hnone R]⟩
    | some n =>
      have hsome (R : Relay) : ({ s with roll := ρ }.wire R m).roll.next = some n := hnext
      by_cases h1 : i = 1
      · exact ⟨{ ρ with base := b }, b, f.malformed, rfl, fun R hR => by
          rw [if_neg h0, ← hR, hsome R]
          exact if_pos h1⟩
      · by_cases h2 : i = 2
        · obtain ⟨ρ', mark, haddress, hkeeps⟩ := State.rollCapacity_keeps s ρ m n b.toNat bodyLen f
          exact ⟨ρ', b, mark, haddress, fun R hR => by
            rw [if_neg h0, hsome R, ← hkeeps R hR]
            exact (if_neg h1).trans (if_pos h2)⟩
        · exact ⟨ρ, State.entryByte { s with roll := ρ } b i, f.malformed, rfl, fun R hR => by
            rw [if_neg h0, ← hR, hsome R]
            exact (if_neg h1).trans (if_neg h2)⟩

/-- The walk over any body of a roll-call frame keeps the address. -/
theorem State.foldl_rollcall {s : State} {r0 : Relay} {m : MgmtFrame} (hs : s.pins.supply = true)
    (hb : r0.bypass = false) (rest : List Byte) {ins outs : List Byte} (ρ : RollCall) (mark : Bool)
    (hl : outs.length = ins.length) (h0 : ins ≠ []) (hn : ins.length + rest.length ≤ Config.maxPositions) :
    ∃ ρ' outs' mark', ρ'.address = ρ.address ∧ outs'.length = rest.length ∧
      (rest.map Symbol.byte).foldl State.receive ({ s with roll := ρ }.wire (r0.marked .roll ins outs mark) m)
        = { s with roll := ρ' }.wire (r0.marked .roll (ins ++ rest) (outs ++ outs') mark') m := by
  induction rest generalizing ins outs ρ mark with
  | nil => exact ⟨ρ, [], mark, rfl, rfl, by simp⟩
  | cons b rest ih =>
    simp only [List.length_cons] at hn
    let f := (FrameCheck.marked .roll ins outs mark).receive b
    have hparser (R : Relay) (hR : R.frame = f) : R.frame.parser = .roll := by rw [hR]; rfl
    obtain ⟨ρ1, b1, mark1, haddress1, hbyte1⟩ := State.rollByte_keeps s ρ m b (ins.length - 3) f.bodyLen f
    obtain ⟨ρ2, b2, mark2, haddress2, hbyte⟩ : ∃ ρ2 b2 mark2, ρ2.address = ρ.address ∧
        ({ s with roll := ρ }.wire (r0.marked .roll ins outs mark) m).receive (.byte b)
          = { s with roll := ρ2 }.wire (r0.marked .roll (ins ++ [b]) (outs ++ [b2]) mark2) m := by
      by_cases hbody : 3 ≤ ins.length ∧ ins.length < 3 + f.bodyLen
      · exact ⟨ρ1, b1, mark1, haddress1, State.receive_marked hs hb hl h0 (by omega) fun R hR => by
          rw [if_pos (by rw [hR]; exact hbody), State.parse_roll (hparser R hR), ← hbyte1 R hR, hR]⟩
      · exact ⟨ρ, b, f.malformed, rfl, State.receive_marked hs hb hl h0 (by omega) fun R hR => by
          rw [if_neg (by rw [hR]; exact hbody), show f.malformed = R.frame.malformed by rw [hR]]⟩
    obtain ⟨ρ', outs', mark', haddress, hlength, hrest⟩ := ih (ins := ins ++ [b]) (outs := outs ++ [b2]) ρ2 mark2
      (by simp [hl]) (by simp) (by simp; omega)
    refine ⟨ρ', b2 :: outs', mark', haddress.trans haddress2, by simp [hlength], ?_⟩
    rw [List.map_cons, List.foldl_cons, hbyte, hrest, List.append_assoc, List.append_assoc]
    rfl

/-- Settles O10: the first frame stages nothing, and the bad end of the second discards what it staged. -/
theorem rollcallWithoutAdoption : Obligations.RollcallWithoutAdoption := by
  refine ⟨fun s n rest hready hstate hn h2 hlength => ?_, fun s body a b hready hstate h3 hmax hcrc => ?_⟩
  · obtain ⟨R, hR, hfeed⟩ := s.feed_rollcall_refused n rest hready hstate hn h2 hlength
    exact ⟨R, congrArg Host.Outcome.next hfeed, hR⟩
  · obtain ⟨ρ, outs, mark, haddress, hlength, hwalk⟩ := State.foldl_rollcall (s := s) (r0 := s.relay)
      (m := s.mgmt.frame) hready.supply hready.released body (ins := frameHead kindRollcall body)
      (outs := frameHead kindRollcall body) s.roll.rest false rfl (by simp [frameHead])
      (by
        show 3 + body.length ≤ 1025
        omega)
    rw [Relay.marked_false] at hwalk
    obtain ⟨R, -, hfeed⟩ := s.feed_bad kindRollcall body outs a b { s with roll := ρ } s.mgmt.frame mark hready hmax
      hready.supply hlength hcrc
      (by
        rw [parserFor_rollcall hstate]
        exact hwalk)
    refine ⟨_, congrArg Host.Outcome.next hfeed, ?_, ?_, ?_⟩ <;> rw [parserFor_rollcall hstate]
    · rfl
    · exact haddress
    · rfl

end Sys2Proof.Machine

/-! ## A request whose check fails (R149) -/

namespace Sys2Proof.Machine

/-- The body of a request that arrives with `b` as its check byte. -/
def alteredBody (r : Request) (kind : Byte) (args : List Byte) (b : Byte) : List Byte :=
  requestHead r kind args ++ (args ++ ([b] ++ ([BitVec.ofNat 8 r.area.length] ++ (r.area ++ r.padding))))

theorem alteredBody_length (r : Request) (kind : Byte) (args : List Byte) (b : Byte) :
    (alteredBody r kind args b).length = 6 + args.length + r.area.length + r.padding.length := by
  simp [alteredBody, requestHead]
  omega

theorem alteredBody_length_eq (r : Request) (kind : Byte) (args : List Byte) (b : Byte) :
    (alteredBody r kind args b).length = (requestBody r kind args).length := by
  simp [alteredBody, requestBody, requestHead]

/-- The symbols of a request whose check byte arrives as `b`: its trailer is that of the body sent. -/
theorem requestSymbols_altered {r : Request} {kind : Byte} {args : List Byte} {b : Byte}
    (h : r.damage = [(8 + args.length, .byte b)]) :
    requestSymbols r kind args
      = [Symbol.frameStart]
        ++ (frameBytes kindMgmt (alteredBody r kind args b)
            ++ wordBytes (crc16 (frameBytes kindMgmt (requestBody r kind args)))).map Symbol.byte ++ [Symbol.frameEnd] := by
  generalize hcrc : crc16 (frameBytes kindMgmt (requestBody r kind args)) = c
  let before : List Byte :=
    [kindMgmt] ++ wordBytes (BitVec.ofNat 16 (requestBody r kind args).length) ++ requestHead r kind args ++ args
  let after : List Byte := [BitVec.ofNat 8 r.area.length] ++ (r.area ++ r.padding) ++ wordBytes c
  have hsent : frameSymbols kindMgmt (requestBody r kind args)
      = (Symbol.frameStart :: before.map Symbol.byte)
        ++ Symbol.byte (crc8 (requestHead r kind args ++ args)) :: (after.map Symbol.byte ++ [.frameEnd]) := by
    rw [frameSymbols, hcrc]
    simp [frameBytes, requestBody, requestHead, before, after]
  have hplace : 8 + args.length = (Symbol.frameStart :: before.map Symbol.byte).length := by
    simp [before, requestHead, wordBytes]
    omega
  rw [requestSymbols, h, damaged, damaged, hsent, hplace, List.set_append_right _ _ (le_refl _), Nat.sub_self,
    List.set_cons_zero]
  simp only [frameBytes, alteredBody_length_eq]
  simp [alteredBody, before, after]

/-- The decision of a request whose check has failed (R149). -/
theorem State.decideRequest_unchecked {s : State} {c : Nat} (hind : s.mgmt.frame.ind ≠ .none)
    (hcheck : s.mgmt.frame.checkOk = false) (hsym : s.relay.frame.symErr = false)
    (hmark : s.relay.frame.malformed = false) : s.decideRequest c = s.count .mgmtCheckBad := by
  unfold State.decideRequest
  cases h : s.mgmt.frame.ind with
  | none => exact absurd h hind
  | addressed => simp only [h, hcheck, hsym, hmark, Bool.false_eq_true, or_self, if_false]
  | broadcast => simp only [h, hcheck, hsym, hmark, Bool.false_eq_true, or_self, if_false]

/-- The body of a request with a wrong check byte: counted, and passed as it came (R149). -/
theorem Run.unchecked (s : State) (r : Request) (kind : Byte) (args hd : List Byte) (b : Byte) (n : Nat)
    (hs : s.pins.supply = true) (hb : s.relay.bypass = false) (hm : n ≤ Config.maxBody) (h3 : hd.length = 3)
    (hw : (wordOf (hd.getD 1 0) (hd.getD 2 0)).toNat = n) (ha : args.length ≤ 48) (hc : r.area.length ≤ 64)
    (hn : n = (alteredBody r kind args b).length) (hind : matchOf r.dest s.roll.address ≠ .none)
    (hcheck : b ≠ crc8 (Machine.requestHead r kind args ++ args)) :
    ∃ m, Run .mgmt s.relay (s.begun .mgmt) .clear hd hd (alteredBody r kind args b) (alteredBody r kind args b)
      (s.count .mgmtCheckBad) m := by
  have h4 : (Machine.requestHead r kind args).length = 4 := rfl
  have hlength : n = 6 + args.length + r.area.length + r.padding.length := by
    rw [hn, alteredBody_length]
  have hword (l : List Byte) : (wordOf ((hd ++ l).getD 1 0) ((hd ++ l).getD 2 0)).toNat = n := by
    rw [head_stays _ _ (by omega), hw]
  let m0 : MgmtFrame :=
    { phase := afterArgs 0 args.length, ind := matchOf r.dest s.roll.address, seq := r.seq, kind := kind
      argLen := args.length, args := [], crc := crc8 (Machine.requestHead r kind args), checkOk := false
      capacity := 0, reply := none, replyPos := 0 }
  let m1 : MgmtFrame :=
    { m0 with phase := .check, args := args, crc := crc8 (Machine.requestHead r kind args ++ args) }
  let m2 : MgmtFrame := { m1 with phase := .capacity }
  let m3 : MgmtFrame := { m2 with phase := if r.area.length = 0 then .tail else .reply, capacity := r.area.length }
  let ins1 := hd ++ Machine.requestHead r kind args
  let ins2 := ins1 ++ args
  let ins3 := ins2 ++ [b]
  let ins4 := ins3 ++ [BitVec.ofNat 8 r.area.length]
  let ins5 := ins4 ++ r.area
  have runHead := Run.requestHead s r kind args hd n hs hb hm h3 hw ha (by omega)
  have runArgs : Run .mgmt s.relay s m0 ins1 ins1 args args s m1 := by
    have hrun := Run.mgmtArgs s.relay s n hs hb hm args m0 ins1 ins1 rfl (by simp [ins1, h3]) (by simp [ins1, h3, h4]; omega)
      (hword _) rfl (Nat.zero_add _)
    have hcrc : args.foldl crc8Step (crc8 (Machine.requestHead r kind args))
        = crc8 (Machine.requestHead r kind args ++ args) := by
      simp [crc8]
    rw [show m0.crc = crc8 (Machine.requestHead r kind args) from rfl, hcrc] at hrun
    exact hrun
  have runCheck : Run .mgmt s.relay s m1 ins2 ins2 [b] [b] s m2 :=
    Run.mgmt m2 b hs hb rfl (by simp [ins2, ins1, h3]) (by simp [ins2, ins1, h3, h4]; omega)
      (by simp only [ins2, ins1, List.append_assoc, hword]) hm fun R => by
        show ({ s.wire R m1 with mgmt := { s.mgmt with
          frame := { m1 with phase := .capacity, checkOk := decide (b = m1.crc) } } }, b)
          = _
        rw [decide_eq_false hcheck]
        rfl
  have runCapacity : Run .mgmt s.relay s m2 ins3 ins3 [BitVec.ofNat 8 r.area.length] [BitVec.ofNat 8 r.area.length]
      (s.count .mgmtCheckBad) m3 :=
    Run.byte hs hb rfl (by simp [ins3, ins2, ins1, h3]) (by simp [ins3, ins2, ins1, h3, h4]; omega)
      (by simp only [ins3, ins2, ins1, List.append_assoc, hword]) hm fun R hsym hmark hp hlen => by
        have hcapacity : (BitVec.ofNat 8 r.area.length).toNat = r.area.length := by
          rw [BitVec.toNat_ofNat]
          omega
        have hparse : (s.wire R m2).parse (BitVec.ofNat 8 r.area.length) (ins3.length - 3)
            = ((s.wire R m2).capacityByte r.area.length n, BitVec.ofNat 8 r.area.length) := by
          unfold State.parse
          rw [show (s.wire R m2).relay.frame.parser = .mgmt from hp]
          show ((s.wire R m2).capacityByte (BitVec.ofNat 8 r.area.length).toNat R.frame.bodyLen, _) = _
          rw [hcapacity, hlen]
        rw [hparse]
        unfold State.capacityByte
        rw [if_neg (by show ¬ (64 < r.area.length ∨ n < 6 + args.length + r.area.length); omega)]
        exact congrArg (·, BitVec.ofNat 8 r.area.length) (State.decideRequest_unchecked (s := s.wire R m3) hind rfl hsym hmark)
  have runArea := Run.mgmtReply s.relay (s.count .mgmtCheckBad) n hs hb hm r.area m3 ins4 ins4 rfl
    (by simp [ins4, ins3, ins2, ins1, h3]) (by simp [ins4, ins3, ins2, ins1, h3, h4]; omega)
    (by simp only [ins4, ins3, ins2, ins1, List.append_assoc, hword])
    (by
      show (if r.area.length = 0 then MgmtPhase.tail else .reply) = if 0 < r.area.length then .reply else .tail
      by_cases h0 : r.area.length = 0
      · rw [if_pos h0, if_neg (by omega)]
      · rw [if_neg h0, if_pos (by omega)])
    (Nat.zero_add _)
  have harea : (r.area.mapIdx fun i x => replyByte m3.reply (m3.replyPos + i) x) = r.area :=
    List.ext_getElem (by simp) (by simp [replyByte, m3, m2, m1, m0])
  rw [harea] at runArea
  have runTail := Run.mgmtTail s.relay (s.count .mgmtCheckBad) n hs hb hm r.padding
    { m3 with phase := .tail, replyPos := m3.capacity } ins5 ins5 rfl
    (by simp [ins5, ins4, ins3, ins2, ins1, h3]) (by simp [ins5, ins4, ins3, ins2, ins1, h3, h4]; omega)
    (by simp only [ins5, ins4, ins3, ins2, ins1, List.append_assoc, hword]) rfl
  exact ⟨_, runHead.trans (runArgs.trans (runCheck.trans (runCapacity.trans (runArea.trans runTail))))⟩

/-- Settles O37: the failed check is counted at the capacity byte, and the frame is judged by its trailer. -/
theorem failedCheckExecutesNothing : Obligations.FailedCheckExecutesNothing := by
  intro i kind args s r b hcarried hready hstate hdest hintact hdamage hcheck
  obtain ⟨-, hargs, harea, hbody⟩ := hintact
  let body := alteredBody r kind args b
  have hmax : body.length ≤ Config.maxBody :=
    (alteredBody_length r kind args b).trans_le hbody
  have hparser : parserFor kindMgmt s.node.state = .mgmt := by
    cases h : s.node.state <;> simp_all [parserFor, kindMgmt, kindCycle]
  have hmatch : matchOf r.dest s.roll.address ≠ .none := by
    unfold matchOf
    split_ifs <;> simp_all
  obtain ⟨m, hrun⟩ := Run.unchecked s r kind args (frameHead kindMgmt body) b body.length hready.supply hready.released hmax
    rfl (frameHead_length kindMgmt body hmax) hargs harea rfl hmatch hcheck
  rw [exec_carried hcarried, State.feedRequest, requestSymbols_altered hdamage]
  by_cases hcrc : crc16 (frameBytes kindMgmt body) = crc16 (frameBytes kindMgmt (requestBody r kind args))
  · obtain ⟨R, -, hfeed⟩ := s.feed_frame kindMgmt body body (s.count .mgmtCheckBad) m hready hmax
      (by
        show 6 ≤ body.length
        have hlength : body.length = _ := alteredBody_length r kind args b
        omega) hready.supply rfl (by rw [hparser]; exact hrun)
    refine ⟨R, m, .framesGood, ?_, Or.inl rfl⟩
    rw [hparser, frameSymbols, hcrc] at hfeed
    exact congrArg Host.Outcome.next hfeed
  · obtain ⟨R, -, hfeed⟩ := s.feed_bad kindMgmt body body (hiByte (crc16 (frameBytes kindMgmt (requestBody r kind args))))
      (loByte (crc16 (frameBytes kindMgmt (requestBody r kind args)))) (s.count .mgmtCheckBad) m false hready hmax
      hready.supply rfl (by rw [wordOf_bytes]; exact fun h => hcrc h.symm)
      (by
        rw [hparser, Relay.marked_false]
        exact hrun)
    refine ⟨R, m, .framesBad, ?_, Or.inr rfl⟩
    rw [hparser] at hfeed
    exact congrArg Host.Outcome.next hfeed

end Sys2Proof.Machine

/-! ## CYCLE frames, slot by slot (R132 to R141) -/

namespace Sys2Proof.Machine

/-! ### What a slot leaves, by its treatment (R138 to R141) -/

/-- The byte that leaves for data byte `j` of a slot of treatment `t` (R141). -/
def Treatment.leaving (t : Treatment) (j : Nat) (b : Byte) : Byte :=
  match t with
  | .produce _ _ _ snap => snap.getD j b
  | .untouched => b
  | .consume _ _ => b

/-- The records that a slot of treatment `t` stages (R139). -/
def Treatment.records (t : Treatment) (target : Word) (data : List Byte) : List Setpoint :=
  match t with
  | .consume f c => slotRecords target f c data
  | .untouched => []
  | .produce _ _ _ _ => []

/-- A slot of treatment `t`, from its length byte on. -/
def State.treated (s : State) (target : Word) (p : SlotPass) (t : Treatment) (x : Slot) : SlotPass :=
  let q := s.lengthTest t x.data.length
  { p with
    staged := (q.1.records target x.data).foldl stage p.staged
    mismatches := p.mismatches + if q.2 then 1 else 0
    out := p.out ++ [x.id, BitVec.ofNat 8 x.data.length] ++ x.data.mapIdx q.1.leaving }

theorem mapIdx_leaving_untouched (l : List Byte) : l.mapIdx Treatment.untouched.leaving = l :=
  List.ext_getElem (by simp) (by simp [Treatment.leaving])

theorem mapIdx_leaving_consume (f c : Nat) (l : List Byte) : l.mapIdx (Treatment.consume f c).leaving = l :=
  List.ext_getElem (by simp) (by simp [Treatment.leaving])

theorem mapIdx_leaving_produce (k : Content) (f c : Nat) {snap l : List Byte} (h : snap.length ≤ l.length) :
    l.mapIdx (Treatment.produce k f c snap).leaving = snap ++ l.drop snap.length := by
  apply List.ext_getElem
  · simp
    omega
  · intro j h1 h2
    rw [List.getElem_mapIdx]
    show snap.getD j _ = _
    by_cases hj : j < snap.length
    · rw [List.getD_eq_getElem _ _ hj, List.getElem_append_left hj]
    · rw [List.getD_eq_default _ _ (by omega), List.getElem_append_right (by omega), List.getElem_drop]
      congr 1
      omega

theorem flatMap_length_le {α β : Type} {f : α → List β} {n : Nat} (h : ∀ x, (f x).length ≤ n) (l : List α) :
    (l.flatMap f).length ≤ n * l.length := by
  induction l with
  | nil => simp
  | cons x l ih =>
    have hx := h x
    rw [List.flatMap_cons, List.length_append, List.length_cons, Nat.mul_succ]
    omega

theorem State.echoContent_length_le (s : State) (f c : Nat) : (s.echoContent f c).length ≤ 2 * c := by
  have hchannel (k : Nat) : (match channelOf (f + k) with
      | some c => wordBytes (s.gen.get c).echo
      | none => []).length ≤ 2 := by
    cases channelOf (f + k) <;> simp [wordBytes]
  have hall := flatMap_length_le hchannel (List.range c)
  rwa [List.length_range] at hall

/-- A content fits the size that its selector fixes (R141). -/
theorem State.content_length_le (s : State) (k : Content) (f c : Nat) : (s.content k f c).length ≤ k.size c := by
  cases k with
  | state => exact Nat.le_of_eq (by simp [State.content, State.stateContent, Content.size, wordBytes])
  | trips => exact Nat.le_of_eq (by simp [State.content, State.tripsContent, Content.size, wordBytes])
  | echo => exact s.echoContent_length_le f c

/-- A consume treatment is given in ARMED and RUN only (R136). -/
theorem SlotEntry.treatment_consume {e : SlotEntry} {n : NodeState} {f c : Nat} (h : e.treatment n = .consume f c) :
    n.live = true := by
  unfold SlotEntry.treatment at h
  split_ifs at h with h1 h2 h3
  · exact h2
  · split at h <;> exact absurd h (by simp)

theorem State.treated_untouched (s : State) (target : Word) (p : SlotPass) (x : Slot) :
    s.treated target p .untouched x = { p with out := p.out ++ x.bytes } := by
  unfold State.treated
  rw [show s.lengthTest .untouched x.data.length = (.untouched, false) from rfl]
  simp only [mapIdx_leaving_untouched, List.append_assoc]
  rfl

/-- A slot is what its treatment makes of it (R136 to R141). -/
theorem State.passSlot_treated (s : State) (target : Word) (p : SlotPass) (x : Slot) :
    s.passSlot target p x =
      if x.id ∈ p.acted then s.treated target { p with repeats := p.repeats + 1 } .untouched x
      else
        match s.slotOf x.id with
        | none => s.treated target p .untouched x
        | some e => s.treated target { p with acted := p.acted ++ [x.id] } (e.treatment s.node.state) x := by
  unfold State.passSlot
  by_cases hrepeat : x.id ∈ p.acted
  · rw [if_pos hrepeat, if_pos hrepeat, State.treated_untouched]
  · rw [if_neg hrepeat, if_neg hrepeat]
    cases hentry : s.slotOf x.id with
    | none => exact (s.treated_untouched target p x).symm
    | some e =>
      dsimp only
      cases ht : e.treatment s.node.state with
      | untouched => rw [State.treated_untouched]
      | consume f c =>
        have hlive := SlotEntry.treatment_consume ht
        by_cases hlen : x.data.length = 2 * c ∨ x.data.length = 2 * c + 2
        · simp [State.treated, State.lengthTest, hlive, hlen, mapIdx_leaving_consume, Slot.bytes, Treatment.records]
        · simp [State.treated, State.lengthTest, hlive, hlen, mapIdx_leaving_untouched, Slot.bytes, Treatment.records]
      | produce k f c snap =>
        by_cases hlen : x.data.length = k.size c
        · have hfits : (s.content k f c).length ≤ x.data.length := hlen ▸ s.content_length_le k f c
          simp [State.treated, State.lengthTest, hlen, mapIdx_leaving_produce k f c hfits, Treatment.records]
        · simp [State.treated, State.lengthTest, hlen, mapIdx_leaving_untouched, Slot.bytes, Treatment.records]

/-! ### The walk (R134) -/

/-- The state within a CYCLE frame, with `p` what its slots have left so far. -/
def State.walked (s : State) (target : Word) (p : SlotPass) (w : Walker) (remaining : Nat) (cur : Option CurrentSlot)
    (pos : Nat) : State :=
  { s with
    counters := (s.counters.add p.mismatches .slotMismatch).add p.repeats .slotRepeat
    slots := { walker := w, target := target, remaining := remaining, cur := cur, dataPos := pos, acted := p.acted,
               staging := p.staged } }

theorem saturate_succ (x n : Nat) : saturate (saturate x n) 1 = saturate x (n + 1) := by
  unfold saturate
  omega

theorem State.walked_count_repeat (s : State) (target : Word) (p : SlotPass) (w : Walker) (k : Nat)
    (cur : Option CurrentSlot) (pos : Nat) :
    (s.walked target p w k cur pos).count .slotRepeat
      = s.walked target { p with repeats := p.repeats + 1 } w k cur pos := by
  simp only [State.walked, State.count, State.countN, Counters.add, saturate_succ]

theorem State.walked_count_mismatch (s : State) (target : Word) (p : SlotPass) (w : Walker) (k : Nat)
    (cur : Option CurrentSlot) (pos : Nat) :
    (s.walked target p w k cur pos).count .slotMismatch
      = s.walked target { p with mismatches := p.mismatches + 1 } w k cur pos := by
  simp only [State.walked, State.count, State.countN, Counters.add, saturate_succ]

/-- A body byte of a CYCLE frame that leaves the body long enough for what is declared (R134, R135). -/
theorem Run.slotByte {r0 : Relay} {s s' : State} {m : MgmtFrame} {ins outs : List Byte} {b b' : Byte} {n : Nat}
    (hs : s.pins.supply = true) (hb : r0.bypass = false) (hl : outs.length = ins.length) (h3 : 3 ≤ ins.length)
    (hi : ins.length < 3 + n) (hn : (wordOf (ins.getD 1 0) (ins.getD 2 0)).toNat = n) (hm : n ≤ Config.maxBody)
    (hwalk : ∀ R : Relay, (s.wire R m).walk b (ins.length - 3) n = (s'.wire R m, b'))
    (hlong : ins.length + 1 < 3 + n ∨ s'.slots.walker = .tail) :
    Run .slot r0 s m ins outs [b] [b'] s' m :=
  Run.byte hs hb hl h3 hi hn hm fun R _ _ hp hlen => by
    unfold State.parse
    rw [show (s.wire R m).relay.frame.parser = .slot from hp, show (s.wire R m).relay.frame.bodyLen = n from hlen]
    show (s.wire R m).slotByte b (ins.length - 3) n = _
    unfold State.slotByte
    rw [hwalk R]
    refine if_neg fun hshort => ?_
    obtain ⟨hlast, hshort⟩ := hshort
    obtain hlong | htail := hlong
    · omega
    · unfold State.bodyShort at hshort
      rw [show (s'.wire R m).slots.walker = .tail from htail] at hshort
      exact absurd hshort (by simp)

/-- One data byte (R134, R139, R141). -/
theorem State.slotData_treated {s : State} {cur : CurrentSlot} (b : Byte) (hcur : s.slots.cur = some cur)
    (hlive : ∀ f c, cur.treatment = .consume f c → s.node.state.live = true) :
    s.slotData b =
      ({ s with
          slots := { s.slots with
            walker := if cur.length ≤ s.slots.dataPos + 1 then afterSlot s.slots.remaining else .slotData
            dataPos := s.slots.dataPos + 1
            cur := some { cur with got := cur.got ++ [b] }
            staging :=
              if cur.length ≤ s.slots.dataPos + 1 then
                (cur.treatment.records s.slots.target (cur.got ++ [b])).foldl stage s.slots.staging
              else s.slots.staging } },
        cur.treatment.leaving s.slots.dataPos b) := by
  unfold State.slotData
  rw [hcur]
  by_cases hlast : cur.length ≤ s.slots.dataPos + 1
  · cases ht : cur.treatment with
    | untouched => simp [State.withSlots, hlast, ht, Treatment.records, Treatment.leaving]
    | produce k f c snap => simp [State.withSlots, hlast, ht, Treatment.records, Treatment.leaving]
    | consume f c => simp [State.withSlots, hlast, ht, Treatment.records, Treatment.leaving, hlive f c ht]
  · cases ht : cur.treatment with
    | untouched => simp [State.withSlots, hlast, ht, Treatment.leaving]
    | produce k f c snap => simp [State.withSlots, hlast, ht, Treatment.leaving]
    | consume f c => simp [State.withSlots, hlast, ht, Treatment.leaving]

/-- A slot is taken up only in ARMED and RUN (R138). -/
theorem State.lengthTest_consume {s : State} {t : Treatment} {len f c : Nat} (h : (s.lengthTest t len).1 = .consume f c) :
    s.node.state.live = true ∧ (len = 2 * c ∨ len = 2 * c + 2) := by
  unfold State.lengthTest at h
  cases t with
  | untouched => exact absurd h (by simp)
  | produce k f' c' snap =>
    dsimp only at h
    split_ifs at h
  | consume f' c' =>
    dsimp only at h
    split_ifs at h with hlive hlen
    obtain ⟨rfl, rfl⟩ := Treatment.consume.inj h
    exact ⟨hlive, hlen⟩

/-- A slot without data stages nothing. -/
theorem State.lengthTest_records_nil (s : State) (t : Treatment) (target : Word) :
    (s.lengthTest t 0).1.records target [] = [] := by
  cases h : (s.lengthTest t 0).1 with
  | untouched => rfl
  | produce k f c snap => rfl
  | consume f c =>
    obtain ⟨-, hlen⟩ := State.lengthTest_consume h
    obtain rfl : c = 0 := by omega
    rfl

/-- The slot length byte within the limits (R134, R138). -/
theorem State.slotLength_fits {s : State} {target : Word} {p : SlotPass} {id : Byte} {k len i n : Nat}
    {entry : Option SlotEntry} {t : Treatment} {R : Relay} {m : MgmtFrame} (hlen : len ≤ 64) (hi : i + 1 + len ≤ n) :
    ((s.walked target p .slotLength k (some ⟨id, 0, entry, t, []⟩) 0).wire R m).slotLength len i n
      = (s.walked target { p with mismatches := p.mismatches + if (s.lengthTest t len).2 then 1 else 0 }
          (if len = 0 then afterSlot k else .slotData) k (some ⟨id, len, entry, (s.lengthTest t len).1, []⟩)
          0).wire R m := by
  have htest : ((s.walked target p .slotLength k (some ⟨id, 0, entry, t, []⟩) 0).wire R m).lengthTest t len
      = s.lengthTest t len := by
    cases t with
    | untouched => rfl
    | consume f c => rfl
    | produce c f l snap => cases c <;> rfl
  have hmax : Config.maxSlotLength = 64 := rfl
  unfold State.slotLength
  rw [if_neg (by omega)]
  dsimp only [State.wire, State.walked] at htest ⊢
  rw [htest]
  split
  · exact congrArg (State.wire · R m) (State.walked_count_mismatch s target p _ k _ 0)
  · rfl

section Walk

variable {s : State} {r0 : Relay} {m : MgmtFrame} {target : Word} {n : Nat} (hs : s.pins.supply = true)
  (hb : r0.bypass = false) (hm : n ≤ Config.maxBody)
include hs hb hm

/-- The data of a slot of treatment `t` (R134, R139, R141). -/
theorem Run.slotData {p : SlotPass} {id : Byte} {total k : Nat} {entry : Option SlotEntry} {t : Treatment}
    (hlive : ∀ f c, t = .consume f c → s.node.state.live = true) (d : List Byte) {got ins outs : List Byte}
    (hl : outs.length = ins.length) (h3 : 3 ≤ ins.length) (hn : (wordOf (ins.getD 1 0) (ins.getD 2 0)).toNat = n)
    (htotal : got.length + d.length = total) (hd : d ≠ []) (hi : ins.length + d.length ≤ 3 + n)
    (hnext : k = 0 ∨ ins.length + d.length < 3 + n) :
    Run .slot r0 (s.walked target p .slotData k (some ⟨id, total, entry, t, got⟩) got.length) m ins outs d
      (d.mapIdx fun j b => t.leaving (got.length + j) b)
      (s.walked target { p with staged := (t.records target (got ++ d)).foldl stage p.staged } (afterSlot k) k
        (some ⟨id, total, entry, t, got ++ d⟩) total) m := by
  induction d generalizing got ins outs with
  | nil => exact absurd rfl hd
  | cons b d ih =>
    simp only [List.length_cons] at htotal hi hnext
    let before : State := s.walked target p .slotData k (some ⟨id, total, entry, t, got⟩) got.length
    have hwalk (R : Relay) : (before.wire R m).walk b (ins.length - 3) n = (before.wire R m).slotData b := rfl
    have hdata (R : Relay) := State.slotData_treated (s := before.wire R m) (cur := ⟨id, total, entry, t, got⟩) b rfl hlive
    by_cases hlast : d = []
    · subst hlast
      have hpos : got.length + 1 = total := by simp only [List.length_nil] at htotal; omega
      refine Run.slotByte hs hb hl h3 (by simp only [List.length_nil] at hi; omega) hn hm (fun R => ?_) ?_
      · rw [hwalk R, hdata R]
        simp only [before, State.walked, State.wire, hpos, le_refl, if_true]
        rfl
      · obtain rfl | hnext := hnext
        · exact Or.inr rfl
        · exact Or.inl (by simpa using hnext)
    · have hmore : ¬ total ≤ got.length + 1 := by
        have hpos := List.length_pos_iff.mpr hlast
        omega
      have hbyte : Run .slot r0 before m ins outs [b] [t.leaving got.length b]
          (s.walked target p .slotData k (some ⟨id, total, entry, t, got ++ [b]⟩) (got ++ [b]).length) m := by
        have hpos := List.length_pos_iff.mpr hlast
        refine Run.slotByte hs hb hl h3 (by omega) hn hm (fun R => ?_) (Or.inl (by omega))
        rw [hwalk R, hdata R]
        simp only [before, State.walked, State.wire, hmore, if_false, List.length_append]
        rfl
      have hrest := ih (got := got ++ [b]) (ins := ins ++ [b]) (outs := outs ++ [t.leaving got.length b]) (by simp [hl])
        (by simp; omega) (by rw [head_stays _ _ h3, hn]) (by simp; omega) hlast (by simp; omega) (by simp; omega)
      have hindex (j : Nat) : (got ++ [b]).length + j = got.length + (j + 1) := by
        simp
        omega
      simp only [hindex, List.append_assoc, List.singleton_append] at hrest
      rw [List.mapIdx_cons]
      exact Run.trans hbyte hrest

/-- A slot of treatment `t` from its length byte on (R134, R138, R141). -/
theorem Run.slotTreated {p : SlotPass} {x : Slot} {k : Nat} {entry : Option SlotEntry} {t : Treatment} {ins outs : List Byte}
    (hsize : x.data.length ≤ 64)
    (hl : outs.length = ins.length) (h3 : 3 ≤ ins.length) (hn : (wordOf (ins.getD 1 0) (ins.getD 2 0)).toNat = n)
    (hi : ins.length + 1 + x.data.length ≤ 3 + n) (hnext : k = 0 ∨ ins.length + 1 + x.data.length < 3 + n) :
    ∃ cur pos, Run .slot r0 (s.walked target p .slotLength k (some ⟨x.id, 0, entry, t, []⟩) 0) m ins outs
      ([BitVec.ofNat 8 x.data.length] ++ x.data)
      ([BitVec.ofNat 8 x.data.length] ++ x.data.mapIdx (s.lengthTest t x.data.length).1.leaving)
      (s.walked target (s.treated target p t x) (afterSlot k) k cur pos) m := by
  let q := s.lengthTest t x.data.length
  let p' : SlotPass := { p with mismatches := p.mismatches + if q.2 then 1 else 0 }
  have hlength : (BitVec.ofNat 8 x.data.length).toNat = x.data.length := by
    rw [BitVec.toNat_ofNat]
    omega
  have hbyte : Run .slot r0 (s.walked target p .slotLength k (some ⟨x.id, 0, entry, t, []⟩) 0) m ins outs
      [BitVec.ofNat 8 x.data.length] [BitVec.ofNat 8 x.data.length]
      (s.walked target p' (if x.data.length = 0 then afterSlot k else .slotData) k
        (some ⟨x.id, x.data.length, entry, q.1, []⟩) 0) m := by
    refine Run.slotByte hs hb hl h3 (by omega) hn hm (fun R => ?_) ?_
    · show (State.slotLength _ (BitVec.ofNat 8 x.data.length).toNat _ _, _) = _
      rw [hlength, State.slotLength_fits hsize (by omega)]
    · by_cases hempty : x.data.length = 0
      · obtain rfl | hnext := hnext
        · exact Or.inr (if_pos hempty)
        · exact Or.inl (by omega)
      · exact Or.inl (by omega)
  by_cases hempty : x.data = []
  · have hrecords : q.1.records target x.data = [] := by
      simp only [q, hempty, List.length_nil]
      exact s.lengthTest_records_nil t target
    have hstate (c : Option CurrentSlot) :
        s.walked target (s.treated target p t x) (afterSlot k) k c 0 = s.walked target p' (afterSlot k) k c 0 := by
      simp only [State.walked, State.treated]
      rw [show (s.lengthTest t x.data.length).1.records target x.data = [] from hrecords]
      rfl
    refine ⟨some ⟨x.id, x.data.length, entry, q.1, []⟩, 0, ?_⟩
    rw [if_pos (by simp [hempty])] at hbyte
    rw [hstate]
    simpa only [hempty, List.mapIdx_nil, List.append_nil] using hbyte
  · rw [if_neg (by simpa using hempty)] at hbyte
    have hdata := Run.slotData (r0 := r0) (m := m) (target := target) (p := p') (id := x.id) (k := k) (entry := entry)
      (t := q.1) (got := []) (ins := ins ++ [BitVec.ofNat 8 x.data.length]) (outs := outs ++ [BitVec.ofNat 8 x.data.length])
      hs hb hm (fun f c h => (State.lengthTest_consume h).1) x.data (by simp [hl]) (by simp; omega)
      (by rw [head_stays _ _ h3, hn]) (Nat.zero_add _) hempty (by simp; omega) (by simp; omega)
    simp only [List.length_nil, Nat.zero_add, List.nil_append] at hdata
    exact ⟨_, _, hbyte.trans hdata⟩

/-- The slot id byte: the slot is resolved, and a repeat is counted (R134, R136, R137). -/
theorem Run.slotId {p : SlotPass} {id : Byte} {k : Nat} {cur : Option CurrentSlot} {pos : Nat} {ins outs : List Byte}
    (hl : outs.length = ins.length) (h3 : 3 ≤ ins.length) (hn : (wordOf (ins.getD 1 0) (ins.getD 2 0)).toNat = n)
    (hi : ins.length + 1 < 3 + n) :
    Run .slot r0 (s.walked target p .slotId (k + 1) cur pos) m ins outs [id] [id]
      (if id ∈ p.acted then
        s.walked target { p with repeats := p.repeats + 1 } .slotLength k (some ⟨id, 0, s.slotOf id, .untouched, []⟩) 0
      else
        match s.slotOf id with
        | none => s.walked target p .slotLength k (some ⟨id, 0, none, .untouched, []⟩) 0
        | some e =>
          s.walked target { p with acted := p.acted ++ [id] } .slotLength k
            (some ⟨id, 0, some e, e.treatment s.node.state, []⟩) 0) m := by
  refine Run.slotByte hs hb hl h3 (by omega) hn hm (fun R => ?_) (Or.inl hi)
  let before : State := s.walked target p .slotId (k + 1) cur pos
  have hwalk : (before.wire R m).walk id (ins.length - 3) n = ((before.wire R m).beginSlot id, id) := by
    show (if n ≤ ins.length - 3 + 1 then _ else (before.wire R m).beginSlot id, id) = _
    rw [if_neg (by omega)]
  have hacted : ((before.wire R m).slots.acted.any fun x => decide (x = id)) = decide (id ∈ p.acted) := by
    show (p.acted.any fun x => decide (x = id)) = _
    rw [Bool.eq_iff_iff]
    simp
  have hfound : (before.wire R m).slotOf id = s.slotOf id := rfl
  rw [hwalk]
  unfold State.beginSlot
  rw [hacted, hfound]
  by_cases hrepeat : id ∈ p.acted
  · rw [if_pos (decide_eq_true hrepeat), if_pos hrepeat]
    exact congrArg (fun t : State => (t.wire R m, id)) (State.walked_count_repeat s target p .slotLength k _ 0)
  · rw [if_neg (by simp [hrepeat]), if_neg hrepeat]
    cases s.slotOf id <;> rfl

/-- A whole slot (R134 to R141). -/
theorem Run.slot {p : SlotPass} {x : Slot} {k : Nat} {cur : Option CurrentSlot} {pos : Nat} {ins outs : List Byte}
    (hsize : x.data.length ≤ 64) (hl : outs.length = ins.length) (h3 : 3 ≤ ins.length)
    (hn : (wordOf (ins.getD 1 0) (ins.getD 2 0)).toNat = n) (hi : ins.length + x.bytes.length ≤ 3 + n)
    (hnext : k = 0 ∨ ins.length + x.bytes.length < 3 + n) :
    ∃ left cur' pos', left.length = x.bytes.length ∧ (s.passSlot target p x).out = p.out ++ left ∧
      Run .slot r0 (s.walked target p .slotId (k + 1) cur pos) m ins outs x.bytes left
        (s.walked target (s.passSlot target p x) (afterSlot k) k cur' pos') m := by
  have hbytes : x.bytes.length = 2 + x.data.length := by
    simp [Slot.bytes]
    omega
  have hid := Run.slotId (s := s) (m := m) (target := target) (p := p) (id := x.id) (k := k) (cur := cur) (pos := pos) hs hb hm
    hl h3 hn (by omega)
  have htreated {p' : SlotPass} {entry : Option SlotEntry} {t : Treatment}
      (hout : p'.out = p.out)
      (hpass : s.passSlot target p x = s.treated target p' t x)
      (hrun : Run .slot r0 (s.walked target p .slotId (k + 1) cur pos) m ins outs [x.id] [x.id]
        (s.walked target p' .slotLength k (some ⟨x.id, 0, entry, t, []⟩) 0) m) :
      ∃ left cur' pos', left.length = x.bytes.length ∧ (s.passSlot target p x).out = p.out ++ left ∧
        Run .slot r0 (s.walked target p .slotId (k + 1) cur pos) m ins outs x.bytes left
          (s.walked target (s.passSlot target p x) (afterSlot k) k cur' pos') m := by
    obtain ⟨cur', pos', hrest⟩ := Run.slotTreated (r0 := r0) (m := m) (target := target) (p := p') (x := x) (k := k)
      (entry := entry) (t := t) (ins := ins ++ [x.id]) (outs := outs ++ [x.id]) hs hb hm hsize (by simp [hl])
      (by simp; omega) (by rw [head_stays _ _ h3, hn]) (by simp; omega) (by simp; omega)
    refine ⟨[x.id] ++ ([BitVec.ofNat 8 x.data.length]
      ++ x.data.mapIdx (s.lengthTest t x.data.length).1.leaving), cur', pos', ?_, ?_, ?_⟩
    · simp [Slot.bytes]
    · rw [hpass]
      simp [State.treated, hout]
    · rw [hpass]
      exact hrun.trans hrest
  have hpass := s.passSlot_treated target p x
  by_cases hrepeat : x.id ∈ p.acted
  · rw [if_pos hrepeat] at hid hpass
    exact htreated (t := .untouched) (p' := { p with repeats := p.repeats + 1 }) rfl hpass hid
  · rw [if_neg hrepeat] at hid hpass
    cases hentry : s.slotOf x.id with
    | none =>
      rw [hentry] at hid hpass
      exact htreated (t := .untouched) (p' := p) rfl hpass hid
    | some e =>
      rw [hentry] at hid hpass
      exact htreated (p' := { p with acted := p.acted ++ [x.id] }) rfl hpass hid

/-- All slots of a frame (R134 to R141). -/
theorem Run.slots (l : List Slot) {p : SlotPass} {cur : Option CurrentSlot} {pos : Nat} {ins outs : List Byte}
    (hsize : ∀ x ∈ l, x.data.length ≤ 64) (hl : outs.length = ins.length) (h3 : 3 ≤ ins.length)
    (hn : (wordOf (ins.getD 1 0) (ins.getD 2 0)).toNat = n)
    (hi : ins.length + (l.flatMap Slot.bytes).length ≤ 3 + n) :
    ∃ left cur' pos', left.length = (l.flatMap Slot.bytes).length
      ∧ (l.foldl (s.passSlot target) p).out = p.out ++ left
      ∧ Run .slot r0 (s.walked target p (afterSlot l.length) l.length cur pos) m ins outs (l.flatMap Slot.bytes) left
          (s.walked target (l.foldl (s.passSlot target) p) .tail 0 cur' pos') m := by
  induction l generalizing p cur pos ins outs with
  | nil => exact ⟨[], cur, pos, rfl, by simp, Run.nil _ _ _ _ _ _⟩
  | cons x l ih =>
    simp only [List.flatMap_cons, List.length_append] at hi
    have hroom : l.length = 0 ∨ ins.length + x.bytes.length < 3 + n := by
      cases l with
      | nil => exact Or.inl rfl
      | cons y l =>
        right
        have hy : 2 ≤ ((y :: l).flatMap Slot.bytes).length := by simp [Slot.bytes]
        omega
    obtain ⟨left1, cur1, pos1, hlength1, hout1, hrun1⟩ := Run.slot (r0 := r0) (m := m) (target := target) (p := p)
      (x := x) (k := l.length) (cur := cur) (pos := pos) hs hb hm (hsize x (by simp)) hl h3 hn (by omega) hroom
    obtain ⟨left2, cur2, pos2, hlength2, hout2, hrun2⟩ := ih (p := s.passSlot target p x) (cur := cur1) (pos := pos1)
      (ins := ins ++ x.bytes) (outs := outs ++ left1) (fun y hy => hsize y (by simp [hy])) (by simp [hl, hlength1])
      (by simp; omega) (by rw [head_stays _ _ h3, hn]) (by rw [List.length_append]; omega)
    refine ⟨left1 ++ left2, cur2, pos2, by simp [hlength1, hlength2], ?_, hrun1.trans hrun2⟩
    rw [List.foldl_cons, hout2, hout1, List.append_assoc]

end Walk

end Sys2Proof.Machine

/-! ## Whole CYCLE frames -/

namespace Sys2Proof.Machine

/-! ### The header and the padding (R134) -/

/-- Nothing passed yet. -/
def SlotPass.start : SlotPass := { acted := [], staged := [], mismatches := 0, repeats := 0, out := [] }

theorem saturate_zero {x : Nat} (h : x ≤ 65535) : saturate x 0 = x := by
  unfold saturate
  omega

theorem State.walked_start {s : State} (hcount : ∀ id, s.counters.get id ≤ 65535) (target : Word) (w : Walker) (k : Nat) :
    s.walked target .start w k none 0
      = { s with
          slots := { walker := w, target := target, remaining := k, cur := none, dataPos := 0, acted := [],
                     staging := [] } } := by
  have hmismatch : saturate s.counters.slotMismatch 0 = s.counters.slotMismatch := saturate_zero (hcount .slotMismatch)
  have hrepeat : saturate s.counters.slotRepeat 0 = s.counters.slotRepeat := saturate_zero (hcount .slotRepeat)
  simp only [State.walked, SlotPass.start, Counters.add, hmismatch, hrepeat]

theorem wordOf_target (a : Byte) (target : Word) : wordOf (hiByte (wordOf (hiByte target) a)) (loByte target) = target := by
  rw [hiByte_wordOf, wordOf_bytes]

/-- The bytes after the last slot pass as they came (R134). -/
theorem Run.cyclePadding {r0 : Relay} {w : State} {m : MgmtFrame} {n : Nat} (hw : w.pins.supply = true)
    (hb : r0.bypass = false) (hm : n ≤ Config.maxBody) (htail : w.slots.walker = .tail) (l : List Byte)
    {ins outs : List Byte} (hl : outs.length = ins.length) (h3 : 3 ≤ ins.length) (hi : ins.length + l.length ≤ 3 + n)
    (hn : (wordOf (ins.getD 1 0) (ins.getD 2 0)).toNat = n) : Run .slot r0 w m ins outs l l w m := by
  induction l generalizing ins outs with
  | nil => exact Run.nil _ _ _ _ _ _
  | cons b l ih =>
    simp only [List.length_cons] at hi
    have hbyte : Run .slot r0 w m ins outs [b] [b] w m :=
      Run.slotByte hw hb hl h3 (by omega) hn hm (fun R => by
        unfold State.walk
        rw [show (w.wire R m).slots.walker = .tail from htail]) (Or.inr htail)
    exact Run.trans hbyte (ih (by simp [hl]) (by simp; omega) (by simp; omega) (by rw [head_stays _ _ h3, hn]))

section Walk

variable {s : State} {m : MgmtFrame} {n : Nat} (hs : s.pins.supply = true) (hb : s.relay.bypass = false)
  (hm : n ≤ Config.maxBody)
include hs hb hm

/-- Target and slot count (R134). -/
theorem Run.cycleHeader (target : Word) {count : Nat} (hcount : count ≤ 255) {hd : List Byte} (h3 : hd.length = 3)
    (hn : (wordOf (hd.getD 1 0) (hd.getD 2 0)).toNat = n) (h3n : 3 ≤ n) (hlong : count = 0 ∨ 3 < n)
    (hstaging : s.slots.staging = []) (hcounters : ∀ id, s.counters.get id ≤ 65535) :
    Run .slot s.relay (s.begun .slot) m hd hd (wordBytes target ++ [BitVec.ofNat 8 count])
      (wordBytes target ++ [BitVec.ofNat 8 count]) (s.walked target .start (afterSlot count) count none 0) m := by
  have hword (l : List Byte) : (wordOf ((hd ++ l).getD 1 0) ((hd ++ l).getD 2 0)).toNat = n := by
    rw [head_stays _ _ (by omega), hn]
  have hvalue : (BitVec.ofNat 8 count).toNat = count := by
    rw [BitVec.toNat_ofNat]
    omega
  let s1 : State := { s.begun .slot with slots := { (s.begun .slot).slots with target := wordOf (hiByte target) 0 } }
  let s2 : State := { s.begun .slot with slots := { (s.begun .slot).slots with target := target } }
  have run1 : Run .slot s.relay (s.begun .slot) m hd hd [hiByte target] [hiByte target] s1 m :=
    Run.slotByte hs hb rfl (by omega) (by omega) hn hm (fun R => by
      unfold State.walk
      rw [show hd.length - 3 = 0 by omega]
      rfl) (Or.inl (by omega))
  have run2 : Run .slot s.relay s1 m (hd ++ [hiByte target]) (hd ++ [hiByte target]) [loByte target] [loByte target] s2 m :=
    Run.slotByte hs hb rfl (by simp; omega) (by simp; omega) (hword _) hm (fun R => by
      unfold State.walk
      rw [show (hd ++ [hiByte target]).length - 3 = 1 by simp; omega]
      exact congrArg (fun t => (({ s1 with slots := { s1.slots with target := t } } : State).wire R m, loByte target))
        (wordOf_target 0 target)) (Or.inl (by simp; omega))
  have run3 : Run .slot s.relay s2 m (hd ++ [hiByte target] ++ [loByte target]) (hd ++ [hiByte target] ++ [loByte target])
      [BitVec.ofNat 8 count] [BitVec.ofNat 8 count] (s.walked target .start (afterSlot count) count none 0) m :=
    Run.slotByte hs hb rfl (by simp; omega) (by simp; omega) (by rw [List.append_assoc, hword]) hm (fun R => by
      unfold State.walk
      rw [show (hd ++ [hiByte target] ++ [loByte target]).length - 3 = 2 by simp; omega, State.walked_start hcounters]
      rw [← hstaging]
      exact congrArg (fun k => (({ s2 with
        slots := { s2.slots with remaining := k, walker := afterSlot k } } : State).wire R m, BitVec.ofNat 8 count)) hvalue)
      (by
        obtain rfl | hlong := hlong
        · exact Or.inr rfl
        · exact Or.inl (by simp; omega))
  have hrun := Run.trans run1 (Run.trans run2 run3)
  exact hrun

/-- The whole body of a CYCLE frame: slot by slot (R134 to R141). -/
theorem Run.cycle (target : Word) (l : List Slot) (padding : List Byte) {hd : List Byte} (h3 : hd.length = 3)
    (hn : (wordOf (hd.getD 1 0) (hd.getD 2 0)).toNat = n)
    (hlength : n = (cycleBody target (l.flatMap Slot.bytes) l.length padding).length) (hcount : l.length ≤ 255)
    (hsize : ∀ x ∈ l, x.data.length ≤ 64) (hstaging : s.slots.staging = [])
    (hcounters : ∀ id, s.counters.get id ≤ 65535) :
    ∃ cur pos, (s.passSlots target l).out.length = (l.flatMap Slot.bytes).length ∧
      Run .slot s.relay (s.begun .slot) m hd hd (cycleBody target (l.flatMap Slot.bytes) l.length padding)
        (cycleBody target (s.passSlots target l).out l.length padding)
        (s.walked target (s.passSlots target l) .tail 0 cur pos) m := by
  have hparts : n = 3 + (l.flatMap Slot.bytes).length + padding.length := by
    rw [hlength, cycleBody]
    simp only [List.length_append, wordBytes, List.length_cons, List.length_nil]
  have hword (t : List Byte) : (wordOf ((hd ++ t).getD 1 0) ((hd ++ t).getD 2 0)).toNat = n := by
    rw [head_stays _ _ (by omega), hn]
  have hlong : l.length = 0 ∨ 3 < n := by
    cases l with
    | nil => exact Or.inl rfl
    | cons x l =>
      right
      have hx : 2 ≤ ((x :: l).flatMap Slot.bytes).length := by simp [Slot.bytes]
      omega
  have hheader := Run.cycleHeader (m := m) hs hb hm target hcount h3 hn (by omega) hlong hstaging hcounters
  let front := hd ++ (wordBytes target ++ [BitVec.ofNat 8 l.length])
  have hfront : front.length = 6 := by simp [front, wordBytes, h3]
  obtain ⟨left, cur, pos, hleft, hout, hslots⟩ := Run.slots (r0 := s.relay) (s := s) (m := m) (target := target)
    (n := n) hs hb
    hm l (p := .start) (cur := none) (pos := 0) (ins := front) (outs := front) hsize rfl (by omega) (hword _) (by omega)
  have hpass : (s.passSlots target l).out = left := by
    show (l.foldl (s.passSlot target) .start).out = left
    rw [hout]
    rfl
  have hpadding := Run.cyclePadding (m := m) (w := s.walked target (s.passSlots target l) .tail 0 cur pos) hs hb hm rfl
    padding (ins := front ++ l.flatMap Slot.bytes) (outs := front ++ left) (by simp [hleft]) (by simp; omega)
    (by rw [List.length_append]; omega) (by simp only [front, List.append_assoc]; exact hword _)
  refine ⟨cur, pos, by rw [hpass, hleft], ?_⟩
  have hrun := Run.trans hheader (Run.trans hslots hpadding)
  simpa only [cycleBody, hpass, List.append_assoc] using hrun

end Walk

/-! ### The end of the frame (R44, R140, R34) -/

/-- An arrival changes the queues and counters, whatever the parser holds. -/
theorem State.takeArrival_slots (s : State) (l : List Setpoint) :
    ∃ q c, ∀ x : SlotParser, State.takeArrival { s with slots := x } l
      = { s with slots := x, queue := q, counters := c } := by
  by_cases hlive : s.node.state.live = true
  · induction l generalizing s with
    | nil => exact ⟨s.queue, s.counters, fun x => State.takeArrival_live [] hlive⟩
    | cons r l ih =>
      obtain ⟨q1, c1, hrecord⟩ : ∃ q c, ∀ x : SlotParser,
          State.takeRecord { s with slots := x } r = { s with slots := x, queue := q, counters := c } :=
        ⟨(s.takeRecord r).queue, (s.takeRecord r).counters, fun x => by
          rw [State.takeRecord_eq { s with slots := x } r rfl, s.takeRecord_eq r rfl]⟩
      obtain ⟨q, c, hrest⟩ := ih { s with queue := q1, counters := c1 } hlive
      refine ⟨q, c, fun x => ?_⟩
      rw [State.takeArrival_cons (s := { s with slots := x }) r l hlive,
        State.takeArrival_single (s := { s with slots := x }) r hlive, hrecord x]
      exact hrest x
  · exact ⟨s.queue, s.counters, fun x => State.takeArrival_not_live l (by simpa using hlive)⟩

/-- The end of a good frame in ARMED, RUN and SAFE: its records are handed over, and the loss count starts again. -/
theorem State.endSlots_good {s : State} (x : SlotParser)
    (hstate : s.node.state = .armed ∨ s.node.state = .run ∨ s.node.state = .safe)
    (R : Relay) (m : MgmtFrame) (hm : m = s.mgmt.frame) :
    ((State.endSlots { s with slots := x } true).goodCycle).wire R m
      = { s.takeArrival x.staging with
          relay := R
          slots := { x with walker := .idle, staging := [], cur := none }
          node := if s.node.state = .safe then s.node else { s.node with loss := 0 } } := by
  obtain ⟨q, c, harrival⟩ := s.takeArrival_slots x.staging
  have hself : s.takeArrival x.staging = { s with queue := q, counters := c } := harrival s.slots
  have hend : State.endSlots { s with slots := x } true
      = { s with slots := { x with walker := .idle, staging := [], cur := none }, queue := q, counters := c } :=
    harrival { x with walker := .idle, staging := [], cur := none }
  rw [hself, hend, hm]
  obtain h | h | h := hstate <;> simp [State.goodCycle, State.wire, NodeState.live, h]

/-! ### The terms in the spec's bytes -/

/-- The slot map in the image's bytes (R4, R6, R136, R174). -/
theorem State.slotOf_spec (s : State) (id : Byte) :
    (s.bank.cond = .empty ∨ id = 0 → s.slotOf id = none)
      ∧ (s.bank.cond = .valid → id ≠ 0 →
        ((∀ k, k < 16 → s.bank.activeImage.read (160 + 4 * k) ≠ id) → s.slotOf id = none)
        ∧ (∀ k, k < 16 → s.bank.activeImage.read (160 + 4 * k) = id →
            (∀ j, j < k → s.bank.activeImage.read (160 + 4 * j) ≠ id) →
            s.slotOf id = some { slotEntry s.bank.activeImage k with id := id })) := by
  refine ⟨fun h => if_pos h, fun hvalid hid => ?_⟩
  have hsearch : s.slotOf id = ((List.range 16).find? fun k => decide (s.bank.activeImage.read (160 + 4 * k) = id)).map
      (slotEntry s.bank.activeImage) := by
    unfold State.slotOf slotEntries
    rw [if_neg (not_or.mpr ⟨by simp [hvalid], hid⟩), List.find?_map]
    rfl
  refine ⟨fun hnone => ?_, fun k hk heq hfirst => ?_⟩
  · have hfind : ((List.range 16).find? fun k => decide (s.bank.activeImage.read (160 + 4 * k) = id)) = none := by
      simpa using hnone
    rw [hsearch, hfind, Option.map_none]
  · have hfind : ((List.range 16).find? fun k => decide (s.bank.activeImage.read (160 + 4 * k) = id)) = some k := by
      rw [List.find?_range_eq_some]
      exact ⟨decide_eq_true heq, List.mem_range.mpr hk, fun j hj => by simpa using hfirst j hj⟩
    rw [hsearch, hfind, Option.map_some, ← heq]
    rfl

/-- The treatment by kind, selector and node state (R136). -/
theorem SlotEntry.treatment_spec (e : SlotEntry) (n : NodeState) :
    (e.kind = 0x01 → n = .armed ∨ n = .run → e.treatment n = .consume e.first e.count)
      ∧ (e.kind = 0x01 → n = .safe → e.treatment n = .untouched)
      ∧ (e.kind = 0x02 → e.selector = 0x01 → e.treatment n = .produce .state e.first e.count [])
      ∧ (e.kind = 0x02 → e.selector = 0x02 → e.treatment n = .produce .trips e.first e.count [])
      ∧ (e.kind = 0x02 → e.selector = 0x03 → e.treatment n = .produce .echo e.first e.count []) := by
  have hproduce (h : e.kind = 0x02) {c : Content} (hc : Content.ofCode e.selector = some c) :
      e.treatment n = .produce c e.first e.count [] := by
    unfold SlotEntry.treatment
    rw [if_neg (show ¬ e.kind = slotKindConsume by rw [h]; decide), if_pos (show e.kind = slotKindProduce from h), hc]
  refine ⟨fun h hn => ?_, fun h hn => ?_, fun h hc => hproduce h ?_, fun h hc => hproduce h ?_, fun h hc => hproduce h ?_⟩
  · unfold SlotEntry.treatment
    obtain rfl | rfl := hn <;> exact if_pos h
  · subst hn
    exact if_pos h
  · rw [hc]
    rfl
  · rw [hc]
    rfl
  · rw [hc]
    rfl

/-- Channels `first` to `first + count − 1`, by number or by test. -/
theorem channels_between {first count : Nat} (h : first + count ≤ 6) :
    (List.range count).filterMap (fun k => channelOf (first + k))
      = channels.filter fun c => first ≤ c.val ∧ c.val < first + count := by
  have hall : ∀ f < 7, ∀ c < 7, f + c ≤ 6 → (List.range c).filterMap (fun k => channelOf (f + k))
      = channels.filter fun x => f ≤ x.val ∧ x.val < f + c := by decide
  exact hall first (by omega) count (by omega) h

theorem channelOf_val {n : Nat} {c : Fin 6} (h : channelOf n = some c) : c.val = n := by
  unfold channelOf at h
  split_ifs at h
  cases h
  rfl

/-- The records of a consume slot, channel by channel (R44, R139). -/
theorem slotRecords_spec (target : Word) {first count : Nat} {data : List Byte} (h : first + count ≤ 6)
    (hlength : data.length = 2 * count ∨ data.length = 2 * count + 2) :
    slotRecords target first count data =
      (channels.filter fun c => first ≤ c.val ∧ c.val < first + count).map fun c =>
        { chan := c, target := target, onTime := wordAt data (2 * (c.val - first))
          phase := if data.length = 2 * count then none else some (wordAt data (2 * count)) } := by
  have hphase : (if data.length = 2 * count + 2 then some (wordAt data (2 * count)) else none)
      = if data.length = 2 * count then none else some (wordAt data (2 * count)) := by
    obtain h | h := hlength
    · rw [if_neg (by omega), if_pos h]
    · rw [if_pos h, if_neg (by omega)]
  unfold slotRecords
  rw [← channels_between h, List.map_filterMap, hphase]
  refine congrArg (List.filterMap · _) (funext fun k => ?_)
  cases hk : channelOf (first + k) with
  | none => rfl
  | some c => simp [channelOf_val hk]

theorem mem_stage (l : List Setpoint) (r x : Setpoint) : x ∈ stage l r ↔ x = r ∨ x ∈ l ∧ x.chan ≠ r.chan := by
  simp [stage, or_comm]

/-- The level of input `i` in the levels byte (R143). -/
theorem Protection.levelsByte_bits (p : Protection) :
    (∀ i : Fin 4, p.levelsByte.getLsbD i.val = (p.inputs.get i).asserted) ∧ p.levelsByte.toNat < 16 := by
  have hget (i : Fin 4) : (p.inputs.get i).asserted
      = match i with
        | 0 => p.inputs.i0.asserted
        | 1 => p.inputs.i1.asserted
        | 2 => p.inputs.i2.asserted
        | 3 => p.inputs.i3.asserted := by
    fin_cases i <;> rfl
  simp only [hget]
  unfold Protection.levelsByte
  generalize p.inputs.i0.asserted = a
  generalize p.inputs.i1.asserted = b
  generalize p.inputs.i2.asserted = c
  generalize p.inputs.i3.asserted = d
  revert a b c d
  decide

/-- The ECHO content, channel by channel (R144). -/
theorem State.echoContent_spec (s : State) {first count : Nat} (h : first + count ≤ 6) :
    s.content .echo first count =
      (channels.filter fun c => first ≤ c.val ∧ c.val < first + count).flatMap fun c => wordBytes (s.gen.get c).echo := by
  rw [← channels_between h, List.filterMap_eq_flatMap_toList, List.flatMap_assoc]
  refine congrArg (List.flatMap · _) (funext fun k => ?_)
  cases channelOf (first + k) <;> simp

/-- The STATE content (R142). -/
theorem State.stateContent_spec (s : State) (first count : Nat) :
    s.content .state first count =
      [s.node.state.code, s.node.cause.code, (s.prot.groups.get 0).state.code, (s.prot.groups.get 1).state.code]
        ++ wordBytes s.timer.period ++ [s.bank.activeImage.read 4, s.bank.activeImage.read 5]
        ++ [BitVec.ofNat 8 s.log.records.length, s.bank.shadow.code] := by
  have htag : wordBytes (imageTag s.bank.activeImage) = [s.bank.activeImage.read 4, s.bank.activeImage.read 5] := by
    simp [wordBytes, imageTag, Memory.readWord]
  show _ ++ wordBytes (imageTag s.bank.activeImage) ++ _ = _
  rw [htag]
  rfl

/-- Settles O11: the walk over the body is that over its slots, and the end hands over or discards what it staged. -/
theorem cycleFrameIsItsSlots : Obligations.CycleFrameIsItsSlots := by
  refine ⟨?_, fun s id => s.slotOf_spec id, SlotEntry.treatment_spec,
    fun target _ _ _ h hlength => slotRecords_spec target h hlength,
    mem_stage, fun s first count => ⟨s.stateContent_spec first count,
      ⟨s.prot.levelsByte, s.prot.levelsByte_bits.1, s.prot.levelsByte_bits.2, rfl⟩, s.echoContent_spec⟩,
    fun _ => ⟨rfl, rfl, rfl⟩, rfl⟩
  intro s target l padding hready hstate hstaging hcounters hcount hsize body pass left noted hmax
  have hparser : parserFor kindCycle s.node.state = .slot := by
    obtain h | h | h := hstate <;> rw [h] <;> rfl
  obtain ⟨cur, pos, hout, hrun⟩ := Run.cycle (m := s.mgmt.frame) (hd := frameHead kindCycle body) hready.supply
    hready.released hmax target l padding rfl (frameHead_length kindCycle body hmax) rfl hcount hsize hstaging hcounters
  have hleft : left.length = body.length := by
    simp [left, body, cycleBody, hout, pass]
  let w : State := s.walked target pass .tail 0 cur pos
  refine ⟨?_, fun a b hcrc => ?_⟩
  · obtain ⟨R, hR, hfeed⟩ := s.feed_frame kindCycle body left w s.mgmt.frame hready hmax
      (by
        show 3 ≤ body.length
        simp [body, cycleBody, wordBytes]) hready.supply hleft (by rw [hparser]; exact hrun)
    have hend := State.endSlots_good (s := { s with counters := noted.add 1 .framesGood }) w.slots hstate R s.mgmt.frame rfl
    refine ⟨R, { w.slots with walker := .idle, staging := [], cur := none }, ?_, hR, rfl, rfl, rfl⟩
    rw [hparser, if_pos rfl] at hfeed
    exact congrArg Host.Outcome.next (hfeed.trans hend)
  · obtain ⟨R, hR, hfeed⟩ := s.feed_bad kindCycle body left a b w s.mgmt.frame false hready hmax hready.supply hleft hcrc
      (by
        rw [hparser, Relay.marked_false]
        exact hrun)
    refine ⟨R, { w.slots with walker := .idle, staging := [], cur := none }, ?_, hR, rfl, rfl, rfl⟩
    rw [hparser] at hfeed
    exact congrArg Host.Outcome.next hfeed

end Sys2Proof.Machine
